-- ==== Sys2Proof/Word.lean ====
section
/-! DEFINITION. The bit-vector types of the block (spec 10_state.md R13, 30_encoding.md R47): bytes, the 24-bit frame, the
3-bit speed. All register values are unsigned (00_scope.md R8). -/

namespace Sys2Proof

/-- An 8-bit register or command word; bit 0 is the least significant (R8). -/
abbrev Byte := BitVec 8

/-- The 24-bit frame, address byte in bits 23 to 16 (R36, R49). -/
abbrev Frame := BitVec 24

/-- The 3-bit speed of `LASTSPD` and of the SPEED argument (R17, R53). -/
abbrev Speed := BitVec 3

end Sys2Proof
end

