-- ==== Sys2Proof/Syntax.lean ====
section
/-! DEFINITION. The twelve commands of spec/opcode_table.json (30_encoding.md R56), one constructor a row. A row is one
whole word, so no constructor has an operand. -/

namespace Sys2Proof

/-- A legal command (R56). -/
inductive Instr where
  /-- `SPEED OFF`, `setSpeed(OFF)` (R64). -/
  | speedOff
  /-- `SPEED 1`, `setSpeed(1)` (R62). -/
  | speed1
  /-- `SPEED 2`, `setSpeed(2)` (R62). -/
  | speed2
  /-- `SPEED 3`, `setSpeed(3)` (R62). -/
  | speed3
  /-- `SPEED 4`, `setSpeed(4)` (R62). -/
  | speed4
  /-- `SPEED 5`, `setSpeed(5)` (R62). -/
  | speed5
  /-- `SPEED 6`, `setSpeed(6)` (R62). -/
  | speed6
  /-- `SPEED ON`, `setSpeed(ON)` (R63). -/
  | speedOn
  /-- `DIR LEFT`, `setDirection(LEFT)` (R65). -/
  | dirLeft
  /-- `DIR RIGHT`, `setDirection(RIGHT)` (R66). -/
  | dirRight
  /-- `LIGHT OFF`, `setLight(OFF)` (R67). -/
  | lightOff
  /-- `LIGHT ON`, `setLight(ON)` (R68). -/
  | lightOn
  deriving DecidableEq, Repr

/-- The twelve commands in the order of the table (R56). -/
def Instr.all : List Instr :=
  [.speedOff, .speed1, .speed2, .speed3, .speed4, .speed5, .speed6, .speedOn, .dirLeft, .dirRight, .lightOff, .lightOn]

end Sys2Proof
end

