-- ==== Sys2Proof/Config.lean ====
section
/-! DEFINITION. The constants the source fixes (00_scope.md R5), the parameters of one built block (R6) with their defaults,
and the sizes derived from them (R7). -/

namespace Sys2Proof

/-- `T_SHORT`, microseconds (R5). -/
def tShort : Nat := 500

/-- `T_LONG`, microseconds (R5). -/
def tLong : Nat := 1000

/-- `T_SLOT = T_SHORT + T_LONG` (R5). -/
def tSlot : Nat := tShort + tLong

/-- `FRAME_BYTES` (R5). -/
def frameBytes : Nat := 3

/-- `FRAME_BITS` (R5). -/
def frameBits : Nat := 24

/-- `DIR_LEFT` (R5). -/
def dirLeftPattern : Byte := 0x00

/-- `DIR_RIGHT` (R5). -/
def dirRightPattern : Byte := 0x20

/-- `LIGHT_OFF` (R5). -/
def lightOffByte : Byte := 0x00

/-- Reset value of `LASTSPD` (R5, R28). -/
def lastSpdReset : Speed := 1

/-- The parameters fixed when the block is built (R6). -/
structure Config where
  /-- `ADDR`, the fan-unit address byte. -/
  addr : Byte
  /-- `LIGHT_ON`, the byte `LIGHTCTL` holds when the light is on. -/
  lightOn : Byte
  /-- `N_REPEATS`, repeats of the frame per command. -/
  nRepeats : Nat
  /-- `BURST_LEN`, repeats per burst. -/
  burstLen : Nat
  /-- `T_GAP`, low time after the 24 data bits of every repeat, microseconds. -/
  tGap : Nat
  /-- `T_BURST`, additional low time between bursts, microseconds. -/
  tBurst : Nat
  deriving DecidableEq, Repr

/-- The defaults of R6 (D7, D8, D11, D12).
UNVERIFIED, unsafe (log 13): the source's literals are unaudited (91_not_in_source.md N14). -/
def Config.default : Config where
  addr := 0xF0
  lightOn := 0xDF
  nRepeats := 21
  burstLen := 7
  tGap := 6000
  tBurst := 12000

/-- The largest value the duration counter must hold, `max(T_LONG, T_GAP, T_BURST)` (R7, R101). -/
def Config.cntMax (c : Config) : Nat := max tLong (max c.tGap c.tBurst)

/-- Bits needed to hold every number up to `n`. -/
def bitsFor (n : Nat) : Nat := n.log2 + 1

/-- Width of `CNT` in bits (R7: 14 for the defaults). -/
def Config.cntWidth (c : Config) : Nat := bitsFor c.cntMax

/-- Width of `REP` in bits (R7: 5 for 21 repeats). -/
def Config.repWidth (c : Config) : Nat := bitsFor (c.nRepeats - 1)

/-- Width of `SLOT` in bits (R7, R13). -/
def slotWidth : Nat := bitsFor 25

end Sys2Proof
end

