-- ==== Sys2Proof/WellFormed.lean ====
section
/-! DEFINITION. What is well formed: an instruction (all twelve, none has an operand), a parameter record (00_scope.md R6,
92_eei_decisions.md D26). -/

namespace Sys2Proof

/-- Every command of the closed set is well formed: the operations "are total functions over their enum domains" (R61) and
no constructor has a field a check could reject. -/
def Instr.wf : Instr → Bool
  | .speedOff | .speed1 | .speed2 | .speed3 | .speed4 | .speed5 | .speed6 | .speedOn => true
  | .dirLeft | .dirRight => true
  | .lightOff | .lightOn => true

/-- The constraints of R6's table; a record outside them is refused, the block is not built (D26, U5). `T_BURST >= 0` and
"8 bits, any value" are the types'. -/
def Config.wf (c : Config) : Bool :=
  c.lightOn != 0x00 && decide (1 ≤ c.nRepeats) && decide (1 ≤ c.burstLen) && decide (1 ≤ c.tGap)

end Sys2Proof
end

