-- ==== Sys2Proof/Decode.lean ====
section
/-! DEFINITION. The command word (30_encoding.md R48, R53 to R57): its fields, the decoder by R56's table, the named
rejection of every other word, and the encoder by R48's fields. -/

namespace Sys2Proof

/-- `op`, bits 7:4 of a command word (R48). -/
def opField (w : Byte) : BitVec 4 := w.extractLsb' 4 4

/-- `z`, bit 3 of a command word (R48). -/
def zField (w : Byte) : BitVec 1 := w.extractLsb' 3 1

/-- `arg`, bits 2:0 of a command word (R48). -/
def argField (w : Byte) : BitVec 3 := w.extractLsb' 0 3

/-- Why a word is reserved, the three grounds of R57 in its order. -/
inductive Reserved where
  /-- `op` is not 1, 2 or 3. -/
  | op
  /-- `op` is legal and `z = 1`. -/
  | z
  /-- `op` is 2 or 3, `z = 0` and `arg[2:1]` is not 0. -/
  | arg
  deriving DecidableEq, Repr

/-- The ground on which a word outside the table is reserved (R57). -/
def reservedReason (w : Byte) : Reserved :=
  if opField w ≠ 1 ∧ opField w ≠ 2 ∧ opField w ≠ 3 then .op
  else if zField w = 1 then .z
  else .arg

/-- The opcode map of R56: word and command, in the order of the table. -/
def opcodeRows : List (Byte × Instr) :=
  [ (0x10, .speedOff), (0x11, .speed1), (0x12, .speed2), (0x13, .speed3), (0x14, .speed4), (0x15, .speed5),
    (0x16, .speed6), (0x17, .speedOn), (0x20, .dirLeft), (0x21, .dirRight), (0x30, .lightOff), (0x31, .lightOn) ]

/-- The decoder: it "compares all 8 bits" with the rows of R56 and rejects every other word by name (R57, R61). -/
def decode (w : Byte) : Except Reserved Instr :=
  match opcodeRows.lookup w with
  | some i => .ok i
  | none => .error (reservedReason w)

/-- Whether a word is one of the twelve legal ones (R56). -/
def legalWord (w : Byte) : Bool :=
  match decode w with
  | .ok _ => true
  | .error _ => false

/-- The `op` value of a command (R48: 1 SPEED, 2 DIR, 3 LIGHT). -/
def Instr.op : Instr → BitVec 4
  | .speedOff | .speed1 | .speed2 | .speed3 | .speed4 | .speed5 | .speed6 | .speedOn => 1
  | .dirLeft | .dirRight => 2
  | .lightOff | .lightOn => 3

/-- The `arg` value of a command (R53: 0 off, 1 to 6 levels, 7 resume; R54: 0 left, 1 right; R55: 0 off, 1 on). -/
def Instr.arg : Instr → BitVec 3
  | .speedOff => 0
  | .speed1 => 1
  | .speed2 => 2
  | .speed3 => 3
  | .speed4 => 4
  | .speed5 => 5
  | .speed6 => 6
  | .speedOn => 7
  | .dirLeft => 0
  | .dirRight => 1
  | .lightOff => 0
  | .lightOn => 1

/-- The encoder, from the fields of format CW (R48): `{op, z = 0, arg}`. -/
def encode (i : Instr) : Byte := i.op ++ (0#1) ++ i.arg

/-- The one byte the command port carries, of an instruction whose bits are `w` as spec/opcode_table.json numbers them:
bit 0 of the row is bit 0 of the byte, and bits from `nbits` on are 0. -/
def tableByte (nbits w : Nat) : Byte := BitVec.ofNat 8 (w % 2 ^ nbits)

/-- What the decoder reads from an instruction of the table (log 15). A value that does not fit the 8 bits of a command word
is no command word. -/
def decodeTableWord (nbits w : Nat) : Option Instr :=
  if w % 2 ^ nbits < 2 ^ 8 then
    match decode (tableByte nbits w) with
    | .ok i => some i
    | .error _ => none
  else none

end Sys2Proof
end

