-- ==== Sys2Proof/Machine/State.lean ====
section
/-! DEFINITION. The state of AERTX (spec 10_state.md R13 to R30) as plain data, the reasons a step can stop, and the state
right after reset (R28, R29). -/

namespace Sys2Proof.Machine

/-- The level of the output line: `HIGH` is logic 1, `LOW` logic 0 (R8, R26). -/
inductive Level where
  | low
  | high
  deriving DecidableEq, Repr

/-- A segment: the line held at one level for a whole number of microseconds (R12). -/
structure Segment where
  level : Level
  dur : Nat
  deriving DecidableEq, Repr

/-- The levels the host drives on the block's input pins just before one `tick` edge (20_memory.md R31). -/
structure PortIn where
  /-- `rst`, synchronous reset, active high. -/
  rst : Bool
  /-- `cmd_valid`, the host offers a command word. -/
  cmdValid : Bool
  /-- `cmd_word`. -/
  cmdWord : Byte
  deriving DecidableEq, Repr

/-- The complete state (R13) with the ghost segment trace (R27). The fields `cfg`, `inputs` and `past` are the model's own:
the parameters of the built block (DESIGN CHOICE, safe, log 1), the host's drive at the coming edges (DESIGN CHOICE, safe,
log 2) and the segments emitted before the latest reset (DEDUCED, unsafe, log 5). -/
structure State where
  /-- The parameters the block was built with (R6, R30 b); no step changes them. -/
  cfg : Config
  /-- `FANADDR` (R14). -/
  fanAddr : Byte
  /-- `FANCTL` (R15). -/
  fanCtl : Byte
  /-- `LIGHTCTL` (R16). -/
  lightCtl : Byte
  /-- `LASTSPD` (R17). -/
  lastSpd : Speed
  /-- `BUSY` (R22). -/
  busy : Bool
  /-- `TX`, the level of the output line (R26). -/
  tx : Level
  /-- `REP`, the repeat in progress (R25). A number: its width is "enough for N_REPEATS-1" (DESIGN CHOICE, safe, log 10). -/
  rep : Nat
  /-- `SLOT`: 0 start symbol, 1 to 24 data bits, 25 trailer (R25). "Other values of SLOT do not occur" (R88; log 10). -/
  slot : Fin 26
  /-- `HALF`: false is 0 (low part, gap), true is 1 (high part, burst pause) (R25). -/
  half : Bool
  /-- `CNT`, ticks still to spend in the current segment (R25, R101). A number: its width follows the parameters (log 10). -/
  cnt : Nat
  /-- The host's drive: the first entry is sampled at the next edge; when the list is empty the port is undriven. -/
  inputs : List PortIn
  /-- Ghost: the segment trace, what was emitted since reset, oldest first (R27). -/
  trace : List Segment
  /-- Ghost: what was emitted in this run before the latest reset, oldest first (log 5). -/
  past : List Segment
  deriving DecidableEq, Repr

/-- The block raises no exception (60_exceptions.md R93), so no step faults: the type has no constructor (log 16). -/
inductive Fault where
  deriving DecidableEq, Repr

/-- Why the model gives a step no meaning. -/
inductive Refusal where
  /-- Raised by exec for an instruction that has no meaning yet (none in this package); safe. -/
  | notModelled (mnemonic : String)
  /-- Raised by step when the parameters break a constraint of R6: "A configuration that breaks a constraint of the table is
  refused: the block is not built" (D26, U5); safe. -/
  | configIllFormed
  /-- Raised by SPEED ON when `LASTSPD` holds 0 or 7, which 93_implementation_defined.md U7 treats as `refuse`; no run from
  reset gets there; safe (log 7). -/
  | lastSpdOutOfRange
  deriving DecidableEq, Repr

/-- The state right after reset of a block built with parameters `c` (R28, R29, R105), the host driving nothing. -/
def State.resetWith (c : Config) : State where
  cfg := c
  fanAddr := c.addr
  fanCtl := 0x00
  lightCtl := lightOffByte
  lastSpd := lastSpdReset
  busy := false
  tx := .high
  rep := 0
  slot := 0
  half := false
  cnt := 0
  inputs := []
  trace := []
  past := []

/-- The state right after reset of the block with the default parameters (R6, R28, R29). -/
def State.reset : State := State.resetWith Config.default

end Sys2Proof.Machine
end

