-- ==== Sys2Proof/Machine/Operands.lean ====
section
/-! DEFINITION. Operand assembly (30_encoding.md R53 to R55) and the two nibble replacements of the fan control byte
(40_state_commands.md R62 to R66, R70). -/

namespace Sys2Proof.Machine

/-- `zext_8(n)` of a 3-bit speed (R9, R53). -/
def zext8 (n : Speed) : Byte := n.zeroExtend 8

/-- `SPD = FANCTL[3:0]` (R15). -/
def spdField (b : Byte) : BitVec 4 := b.extractLsb' 0 4

/-- `DIR = FANCTL[7:4]` (R15). -/
def dirField (b : Byte) : BitVec 4 := b.extractLsb' 4 4

/-- `(FANCTL & 0xF0) | zext_8(n)`: the speed nibble replaced, the direction kept (R62 to R64). -/
def withSpeed (fanCtl : Byte) (n : Speed) : Byte := (fanCtl &&& 0xF0) ||| zext8 n

/-- `(FANCTL & 0x0F) | pattern`: the whole high nibble replaced, the speed kept (R65, R66, C1). -/
def withDir (fanCtl pattern : Byte) : Byte := (fanCtl &&& 0x0F) ||| pattern

/-- `DirPattern(arg) = zext_8(arg[0]) << 5` (R54). -/
def dirPattern (arg : BitVec 3) : Byte := ((arg.extractLsb' 0 1).zeroExtend 8) <<< 5

/-- `LightByte(arg)`: `LIGHT_ON` if `arg[0] = 1`, else `0x00` (R55). -/
def lightByte (c : Config) (arg : BitVec 3) : Byte := if arg.extractLsb' 0 1 = 1 then c.lightOn else lightOffByte

/-- A concrete level, 1 to 6: what `LASTSPD` may hold (R12, R17). -/
def concreteLevel (n : Speed) : Bool := decide (1 ≤ n.toNat ∧ n.toNat ≤ 6)

end Sys2Proof.Machine
end

