-- ==== Sys2Proof/Machine/Waveform.lean ====
section
/-! DEFINITION. The transaction level of the transmitter (41_transmitter.md R73 to R85): the waveform of a frame as a pure
function to a list of segments, its length, its merged form (00_scope.md R12) and its tick samples (R92). -/

namespace Sys2Proof.Machine

/-- `{FANADDR, FANCTL, LIGHTCTL}` (R73, R36). -/
def frameOf (addr fanCtl lightCtl : Byte) : Frame := addr ++ fanCtl ++ lightCtl

/-- `Bit(f, i) = f[24 - i]`, the data bit of slot `i`, `i` in 1 to 24 (R74). -/
def frameBit (f : Frame) (i : Nat) : Bool := f.getLsbD (24 - i)

/-- `StartSym()` (R75). -/
def startSym : List Segment := [⟨.low, tShort⟩, ⟨.high, tLong⟩]

/-- `OneSym()` (R76). -/
def oneSym : List Segment := [⟨.low, tShort⟩, ⟨.high, tLong⟩]

/-- `ZeroSym()` (R77). -/
def zeroSym : List Segment := [⟨.low, tLong⟩, ⟨.high, tShort⟩]

/-- `DataSym(b)` (R77). -/
def dataSym (b : Bool) : List Segment := if b then oneSym else zeroSym

/-- The data symbols of the first `n` slots from slot 1 on, in time order. -/
def dataSyms (f : Frame) : Nat → List Segment
  | 0 => []
  | n + 1 => dataSyms f n ++ dataSym (frameBit f (n + 1))

/-- `RepeatBody(f)`: the start symbol and the 24 data symbols (R79). -/
def repeatBody (f : Frame) : List Segment := startSym ++ dataSyms f frameBits

/-- `Gap()` (R80). -/
def gap (c : Config) : List Segment := [⟨.low, c.tGap⟩]

/-- `BurstBoundary(r)` (R81). -/
def burstBoundary (c : Config) (r : Nat) : Bool :=
  decide ((r + 1) % c.burstLen = 0) && decide (r + 1 < c.nRepeats) && decide (0 < c.tBurst)

/-- `BurstPause(r)` (R81). -/
def burstPause (c : Config) (r : Nat) : List Segment := if burstBoundary c r then [⟨.low, c.tBurst⟩] else []

/-- Everything sent for repeat `r`: body, gap, and the burst pause at a boundary (R52, R83). -/
def repeatSegments (c : Config) (f : Frame) (r : Nat) : List Segment := repeatBody f ++ gap c ++ burstPause c r

/-- The segments of repeats `0` to `n - 1`. -/
def repeats (c : Config) (f : Frame) : Nat → List Segment
  | 0 => []
  | n + 1 => repeats c f n ++ repeatSegments c f n

/-- `Waveform(f)` (R83). -/
def waveform (c : Config) (f : Frame) : List Segment := repeats c f c.nRepeats

/-- The time a segment list takes, microseconds. -/
def totalDur (w : List Segment) : Nat := (w.map (fun g => g.dur)).sum

/-- The time a segment list holds the line at level `l`, microseconds. -/
def timeAt (l : Level) (w : List Segment) : Nat := totalDur (w.filter (fun g => g.level == l))

/-- `ones(f)`: the number of 1 bits of the frame (R79). -/
def ones (f : Frame) : Nat := (List.range frameBits).countP (fun k => f.getLsbD k)

/-- `NB`: the number of burst pauses of a transmission (R85). -/
def burstCount (c : Config) : Nat := if c.tBurst = 0 then 0 else (c.nRepeats - 1) / c.burstLen

/-- `T_repeat` (R85). -/
def tRepeat (c : Config) : Nat := 25 * tSlot + c.tGap

/-- `T_total` (R85). -/
def tTotal (c : Config) : Nat := c.nRepeats * tRepeat c + burstCount c * c.tBurst

/-- The merged form: neighbouring segments of equal level joined into one (R12). -/
def merge : List Segment → List Segment
  | [] => []
  | g :: rest =>
    match merge rest with
    | [] => [g]
    | h :: tail => if g.level = h.level then ⟨g.level, g.dur + h.dur⟩ :: tail else g :: h :: tail

/-- The level of the line at every tick of a segment list, in time order (R92). -/
def samples (w : List Segment) : List Level := w.flatMap (fun g => List.replicate g.dur g.level)

/-- Run-length encoding of sampled levels (R92). -/
def runLengths (ls : List Level) : List Segment := merge (ls.map (fun l => ⟨l, 1⟩))

/-- The symbol of slot `i` in 0 to 24: the start symbol has the shape of a one (R87). -/
def slotSym (f : Frame) (i : Nat) : Bool := if i = 0 then true else frameBit f i

/-- `LowDur(i)` (R87). -/
def lowDur (f : Frame) (i : Nat) : Nat := if slotSym f i then tShort else tLong

/-- `HighDur(i) = T_SLOT - LowDur(i)` (R87). -/
def highDur (f : Frame) (i : Nat) : Nat := tSlot - lowDur f i

end Sys2Proof.Machine
end

