-- ==== Sys2Proof/Machine/Ops.lean ====
section
/-! DEFINITION. The named operations over the registers: the register writes of the commands, loading a segment, the idle
state, the start of a transmission (41_transmitter.md R86) and the reset edge (70_reset_and_hazards.md R105, R106). The block
has no memory (20_memory.md R35) and no exception or trap to enter or return from (60_exceptions.md R93, R98): the one event
that overrides a command is the reset edge. -/

namespace Sys2Proof.Machine

/-- `Frame()` of the live registers (R73). -/
def State.frame (s : State) : Frame := frameOf s.fanAddr s.fanCtl s.lightCtl

/-- `FANCTL <- v`. -/
def State.setFanCtl (s : State) (v : Byte) : State := { s with fanCtl := v }

/-- `LIGHTCTL <- v`. -/
def State.setLightCtl (s : State) (v : Byte) : State := { s with lightCtl := v }

/-- `LASTSPD <- v`. -/
def State.setLastSpd (s : State) (v : Speed) : State := { s with lastSpd := v }

/-- The sequencer position `(REP, SLOT, HALF)` (R25). -/
def State.setPos (s : State) (rep : Nat) (slot : Fin 26) (half : Bool) : State :=
  { s with rep := rep, slot := slot, half := half }

/-- `TX <- l; CNT <- d`, and the segment enters the ghost trace: `Emit(l, d)` (R9).
DESIGN CHOICE, unsafe (log 4): the trace gets a segment when the sequencer loads it. -/
def State.loadSegment (s : State) (l : Level) (d : Nat) : State :=
  { s with tx := l, cnt := d, trace := s.trace ++ [⟨l, d⟩] }

/-- The idle transmitter: the `else` branch of EndRepeat (R89), `TX` high and the position 0 (R25, R26, R29). -/
def State.goIdle (s : State) : State :=
  { s with busy := false, tx := .high, rep := 0, slot := 0, half := false, cnt := 0 }

/-- `SeqStart` (R86): the low part of the first start symbol runs from this edge. -/
def State.seqStart (s : State) : State := (({ s with busy := true }).setPos 0 0 false).loadSegment .low tShort

/-- The last segment of a trace shortened to the ticks it was held, when a reset edge finds `cnt` ticks still to spend. -/
def cutLast (cnt : Nat) (w : List Segment) : List Segment :=
  match w.getLast? with
  | none => []
  | some g => w.dropLast ++ [⟨g.level, g.dur + 1 - cnt⟩]

/-- The trace as the line has shown it up to this edge if the edge cuts the transmission (R106, 95_test_vectors.md
Program 4). DEDUCED, unsafe (log 5). -/
def State.heldTrace (s : State) : List Segment := if s.busy then cutLast s.cnt s.trace else s.trace

/-- The reset edge (R105): every register takes its reset value, whatever else is going on; `FANADDR` is a constant. The
trace since reset is empty again (R27, R29) and what was sent before is kept in `past` (log 5). -/
def State.resetEdge (s : State) : State :=
  { s.goIdle with
    fanCtl := 0x00, lightCtl := lightOffByte, lastSpd := lastSpdReset, trace := [], past := s.past ++ s.heldTrace }

end Sys2Proof.Machine
end

