-- ==== Sys2Proof/Machine/Direction.lean ====
section
/-! DEFINITION. The DIR family (40_state_commands.md R65, R66). -/

namespace Sys2Proof.Machine

/-- `DIR LEFT` (R65): the pattern of `arg = 0`. -/
def execDirLeft (s : State) : Host.Outcome State Fault Refusal :=
  .next ((s.setFanCtl (withDir s.fanCtl (dirPattern 0))).seqStart)

/-- `DIR RIGHT` (R66): the pattern of `arg = 1`. -/
def execDirRight (s : State) : Host.Outcome State Fault Refusal :=
  .next ((s.setFanCtl (withDir s.fanCtl (dirPattern 1))).seqStart)

end Sys2Proof.Machine
end

