-- ==== Sys2Proof/Machine/Light.lean ====
section
/-! DEFINITION. The LIGHT family (40_state_commands.md R67, R68). -/

namespace Sys2Proof.Machine

/-- `LIGHT OFF` (R67): the byte of `arg = 0`. -/
def execLightOff (s : State) : Host.Outcome State Fault Refusal := .next ((s.setLightCtl (lightByte s.cfg 0)).seqStart)

/-- `LIGHT ON` (R68): the byte of `arg = 1`, the parameter `LIGHT_ON`. -/
def execLightOn (s : State) : Host.Outcome State Fault Refusal := .next ((s.setLightCtl (lightByte s.cfg 1)).seqStart)

end Sys2Proof.Machine
end

