-- ==== Sys2Proof/Machine/Speed.lean ====
section
/-! DEFINITION. The SPEED family (40_state_commands.md R62 to R64). Each command writes the registers and starts the
transmission of the frame of the new values at the same edge (R61, R86). -/

namespace Sys2Proof.Machine

/-- `setSpeed` with a concrete level (R62). -/
def setLevel (n : Speed) (s : State) : Host.Outcome State Fault Refusal :=
  .next (((s.setLastSpd n).setFanCtl (withSpeed s.fanCtl n)).seqStart)

/-- `SPEED OFF` (R64): resolved speed 0, `LASTSPD` unchanged. -/
def execSpeedOff (s : State) : Host.Outcome State Fault Refusal := .next ((s.setFanCtl (withSpeed s.fanCtl 0)).seqStart)

/-- `SPEED 1` (R62). -/
def execSpeed1 (s : State) : Host.Outcome State Fault Refusal := setLevel 1 s

/-- `SPEED 2` (R62). -/
def execSpeed2 (s : State) : Host.Outcome State Fault Refusal := setLevel 2 s

/-- `SPEED 3` (R62). -/
def execSpeed3 (s : State) : Host.Outcome State Fault Refusal := setLevel 3 s

/-- `SPEED 4` (R62). -/
def execSpeed4 (s : State) : Host.Outcome State Fault Refusal := setLevel 4 s

/-- `SPEED 5` (R62). -/
def execSpeed5 (s : State) : Host.Outcome State Fault Refusal := setLevel 5 s

/-- `SPEED 6` (R62). -/
def execSpeed6 (s : State) : Host.Outcome State Fault Refusal := setLevel 6 s

/-- `SPEED ON` (R63): resolved speed is `LASTSPD`, which is unchanged. `LASTSPD` holding 0 or 7 is refused, as U7 says: the
command "would then store 0 or 7; 7 in FANCTL contradicts 7 is never persisted" (log 7). -/
def execSpeedOn (s : State) : Host.Outcome State Fault Refusal :=
  if concreteLevel s.lastSpd then .next ((s.setFanCtl (withSpeed s.fanCtl s.lastSpd)).seqStart)
  else .refused .lastSpdOutOfRange

end Sys2Proof.Machine
end

