-- ==== Sys2Proof/Machine/Dispatch.lean ====
section
/-! DEFINITION. One arm per command: what a command word does at the edge that accepts it (40_state_commands.md R61 to R69). -/

namespace Sys2Proof.Machine

def exec (i : Instr) (s : State) : Host.Outcome State Fault Refusal :=
  match i with
  | .speedOff => Sys2Proof.Machine.execSpeedOff s
  | .speed1 => Sys2Proof.Machine.execSpeed1 s
  | .speed2 => Sys2Proof.Machine.execSpeed2 s
  | .speed3 => Sys2Proof.Machine.execSpeed3 s
  | .speed4 => Sys2Proof.Machine.execSpeed4 s
  | .speed5 => Sys2Proof.Machine.execSpeed5 s
  | .speed6 => Sys2Proof.Machine.execSpeed6 s
  | .speedOn => Sys2Proof.Machine.execSpeedOn s
  | .dirLeft => Sys2Proof.Machine.execDirLeft s
  | .dirRight => Sys2Proof.Machine.execDirRight s
  | .lightOff => Sys2Proof.Machine.execLightOff s
  | .lightOn => Sys2Proof.Machine.execLightOn s

end Sys2Proof.Machine
end

