-- ==== Sys2Proof/Machine/Flags.lean ====
section
/-! DEFINITION. The flags (spec 10_state.md R20 to R23): the direction flag, the light flag and the speed as the status port
shows them, all combinational functions of the registers. The one stored flag is `BUSY`, a field of State. -/

namespace Sys2Proof.Machine

/-- `DIRF = FANCTL[5]`: false left, true right (R20). -/
def State.dirFlag (s : State) : Bool := s.fanCtl.getLsbD 5

/-- The light is on when `LIGHTCTL != 0x00` (R21). -/
def State.lightFlag (s : State) : Bool := s.lightCtl != 0x00

/-- `st_speed[2:0] = FANCTL[2:0]` (R23). -/
def State.speedBits (s : State) : BitVec 3 := s.fanCtl.extractLsb' 0 3

end Sys2Proof.Machine
end

