-- ==== Sys2Proof/Machine/Ports.lean ====
section
/-! DEFINITION. The ports (20_memory.md R31): sampling the host's inputs at an edge (R33, R46), the outputs (10_state.md R22,
R23), the status read (40_state_commands.md R71). -/

namespace Sys2Proof.Machine

/-- An undriven port: all zero (R48). -/
def undriven : PortIn := ⟨false, false, 0x00⟩

/-- The host offers the word `w`. -/
def offer (w : Byte) : PortIn := ⟨false, true, w⟩

/-- The input levels just before the next edge. DESIGN CHOICE, safe (log 2): when the host's list is used up the port is
undriven. -/
def State.pins (s : State) : PortIn := s.inputs.headD undriven

/-- The host's drive moves on to the following edge. -/
def State.advancePins (s : State) : State := { s with inputs := s.inputs.tail }

/-- A word is accepted exactly when `rst = 0`, `cmd_valid = 1` and `BUSY = 0` just before the edge (R33). -/
def State.accepts (s : State) : Bool := !s.pins.rst && s.pins.cmdValid && !s.busy

/-- The output pins (R31). -/
structure PortOut where
  cmdReady : Bool
  busy : Bool
  tx : Level
  stValid : Bool
  stSpeed : BitVec 3
  stDir : Bool
  stLight : Bool
  deriving DecidableEq, Repr

/-- The levels of the output pins after an edge (R22, R23, R26, R90). -/
def State.outputs (s : State) : PortOut where
  cmdReady := !s.busy
  busy := s.busy
  tx := s.tx
  stValid := !s.busy
  stSpeed := s.speedBits
  stDir := s.dirFlag
  stLight := s.lightFlag

/-- What a status read returns: speed (0 off), direction (false left), light (R71). -/
structure Status where
  speed : BitVec 3
  dir : Bool
  light : Bool
  deriving DecidableEq, Repr

/-- The status read (R71): a result while `BUSY = 0`, no result while `BUSY = 1` (R34, U3; log 9). -/
def State.statusRead (s : State) : Option Status :=
  if s.busy then none else some ⟨s.speedBits, s.dirFlag, s.lightFlag⟩

/-- The rising edge of `busy`, the integration point for "command dispatch" (R4 b, D20). -/
def commandDispatch (before after : State) : Bool := !before.busy && after.busy

end Sys2Proof.Machine
end

