-- ==== Sys2Proof/Machine/Sequencer.lean ====
section
/-! DEFINITION. The tick level of the transmitter (41_transmitter.md R87 to R89): one tick of a running transmission. The
frame is read from the live registers, there is no latch (10_state.md R30, D18). -/

namespace Sys2Proof.Machine

/-- `EndRepeat` (R89): the next start symbol, or the end of the transmission. -/
def State.endRepeat (s : State) : State :=
  if s.rep + 1 < s.cfg.nRepeats then (s.setPos (s.rep + 1) 0 false).loadSegment .low tShort
  else s.goIdle

/-- The move out of the high part of slot `i` in 0 to 24: the low part of the next data symbol, or the gap (R88). -/
def State.nextSlot (s : State) (i : Fin 25) : State :=
  (s.setPos s.rep i.succ false).loadSegment .low (if i.val = 24 then s.cfg.tGap else lowDur s.frame (i.val + 1))

/-- The move inside the trailer, slot 25 (R88): after the gap the burst pause at a burst boundary, else the repeat ends. -/
def State.nextTrailer (s : State) : State :=
  if s.half = false ∧ burstBoundary s.cfg s.rep = true then (s.setPos s.rep s.slot true).loadSegment .low s.cfg.tBurst
  else s.endRepeat

/-- `NextSegment` (R88). -/
def State.nextSegment (s : State) : State :=
  if h : s.slot.val < 25 then
    if s.half then s.nextSlot ⟨s.slot.val, h⟩
    else (s.setPos s.rep s.slot true).loadSegment .high (highDur s.frame s.slot.val)
  else s.nextTrailer

/-- `SeqTick` (R87): one tick of a running transmission. -/
def State.seqTick (s : State) : State :=
  if s.cnt > 1 then { s with cnt := s.cnt - 1 } else s.nextSegment

/-- The level the line has at the sequencer's position (R26). -/
def State.segLevel (s : State) : Level := if s.slot.val < 25 ∧ s.half = true then .high else .low

/-- The length of the segment at the sequencer's position (R25, R87, R88). -/
def State.segDur (s : State) : Nat :=
  if s.slot.val < 25 then (if s.half then highDur s.frame s.slot.val else lowDur s.frame s.slot.val)
  else if s.half then s.cfg.tBurst else s.cfg.tGap

end Sys2Proof.Machine
end

