-- ==== Sys2Proof/Machine/Edge.lean ====
section
/-! DEFINITION. One `tick` edge of the block (41_transmitter.md R90), and how a word is put before it. -/

namespace Sys2Proof.Machine

/-- `Execute(cmd_word)` (R61): a legal word runs its command, a reserved word is consumed and leaves no trace (R72; U1
lets a model take this no-op; log 6). -/
def executeWord (w : Byte) (s : State) : Host.Outcome State Fault Refusal :=
  match decode w with
  | .ok i => exec i s
  | .error _ => .next s

/-- What the registers do at an edge with input levels `p`, in the priority order of R90 and R97. -/
def blockEdge (p : PortIn) (s : State) : Host.Outcome State Fault Refusal :=
  if p.rst then .next s.resetEdge
  else if s.busy then .next s.seqTick
  else if p.cmdValid then executeWord p.cmdWord s
  else .next s

/-- One edge: the pins are sampled, the host's drive moves on, the registers change. A parameter record outside its
constraints is refused: "the block is not built" (R6, U5; log 8). -/
def tickEdge (s : State) : Host.Outcome State Fault Refusal :=
  if s.cfg.wf then blockEdge s.pins s.advancePins else .refused .configIllFormed

/-- `s` with the word `w` offered at the next edge to an idle transmitter, so that the edge accepts it (R33; log 3). -/
def State.offerNext (s : State) (w : Byte) : State :=
  { (if s.busy then s.goIdle else s) with inputs := offer w :: s.inputs.tail }

end Sys2Proof.Machine
end

