-- ==== Sys2Proof/Machine/Step.lean ====
section
/-! DEFINITION. The step of the machine: one `tick` edge, one microsecond (00_scope.md R7, 20_memory.md R32). -/

namespace Sys2Proof.Machine

/-- One step (R90). -/
def step (s : State) : Host.Outcome State Fault Refusal := tickEdge s

/-- `s` with an instruction of the table on the command port, to be accepted at the very next edge (log 3). -/
def State.withFetchWord (s : State) (nbits w : Nat) : State := s.offerNext (tableByte nbits w)

end Sys2Proof.Machine
end

