-- ==== Sys2Proof/Machine/Assembler.lean ====
section
/-! DEFINITION. The textual form of a command (30_encoding.md R59) with the source's own spelling as a synonym and the four
pseudo-instructions (R60). Text is a list of characters. DESIGN CHOICE, safe (log 14): tokens are separated by blanks and
parentheses, and a line without tokens is skipped. -/

namespace Sys2Proof.Machine

/-- The characters that separate words. -/
def isBlank (c : Char) : Bool := c == ' ' || c == '\t' || c == '\r'

/-- A finished word, if there is one. -/
def flushWord (word : List Char) : List (List Char) := if word = [] then [] else [word]

/-- The words of a line in upper case, each parenthesis a word of its own, up to the comment sign. -/
def words (word : List Char) : List Char → List (List Char)
  | [] => flushWord word
  | c :: cs =>
    if c == ';' then flushWord word
    else if isBlank c then flushWord word ++ words [] cs
    else if c == '(' || c == ')' then flushWord word ++ [c] :: words [] cs
    else words (word ++ [c.toUpper]) cs

/-- The operation's mnemonic (R59). -/
def mnemonicText : Instr → List Char
  | .speedOff | .speed1 | .speed2 | .speed3 | .speed4 | .speed5 | .speed6 | .speedOn => ['S', 'P', 'E', 'E', 'D']
  | .dirLeft | .dirRight => ['D', 'I', 'R']
  | .lightOff | .lightOn => ['L', 'I', 'G', 'H', 'T']

/-- The operand (R59). -/
def operandText : Instr → List Char
  | .speedOff => ['O', 'F', 'F']
  | .speed1 => ['1']
  | .speed2 => ['2']
  | .speed3 => ['3']
  | .speed4 => ['4']
  | .speed5 => ['5']
  | .speed6 => ['6']
  | .speedOn => ['O', 'N']
  | .dirLeft => ['L', 'E', 'F', 'T']
  | .dirRight => ['R', 'I', 'G', 'H', 'T']
  | .lightOff => ['O', 'F', 'F']
  | .lightOn => ['O', 'N']

/-- The source's name of the operation (R56). -/
def setterText : Instr → List Char
  | .speedOff | .speed1 | .speed2 | .speed3 | .speed4 | .speed5 | .speed6 | .speedOn =>
    ['s', 'e', 't', 'S', 'p', 'e', 'e', 'd']
  | .dirLeft | .dirRight => ['s', 'e', 't', 'D', 'i', 'r', 'e', 'c', 't', 'i', 'o', 'n']
  | .lightOff | .lightOn => ['s', 'e', 't', 'L', 'i', 'g', 'h', 't']

/-- A command as text, `SPEED 3` (R59). -/
def commandText (i : Instr) : List Char := mnemonicText i ++ [' '] ++ operandText i

/-- A command in the source's spelling, `setSpeed(3)` (R59). -/
def setterCallText (i : Instr) : List Char := setterText i ++ ['('] ++ operandText i ++ [')']

/-- The pseudo-instructions (R60). -/
def pseudoRows : List (List Char × Instr) :=
  [ (['F', 'A', 'N', ' ', 'O', 'N'], .speedOn), (['F', 'A', 'N', ' ', 'O', 'F', 'F'], .speedOff),
    (['S', 'U', 'M', 'M', 'E', 'R'], .dirLeft), (['W', 'I', 'N', 'T', 'E', 'R'], .dirRight) ]

/-- Every spelling of a command with its meaning: R59's, the source's, R60's. -/
def spellings : List (List Char × Instr) :=
  Instr.all.map (fun i => (commandText i, i)) ++ Instr.all.map (fun i => (setterCallText i, i)) ++ pseudoRows

/-- The words of every spelling with its meaning. -/
def spellingWords : List (List (List Char) × Instr) := spellings.map (fun p => (words [] p.1, p.2))

/-- The command a line of text stands for (R59, R60). -/
def assembleLine (line : List Char) : Option Instr := spellingWords.lookup (words [] line)

/-- The command words of a text, one command a line (R59). -/
def assemble : List (List Char) → Option (List Byte)
  | [] => some []
  | l :: ls =>
    if words [] l = [] then assemble ls
    else
      match assembleLine l, assemble ls with
      | some i, some ws => some (encode i :: ws)
      | _, _ => none

/-- A hexadecimal digit. -/
def hexDigit (n : BitVec 4) : Char :=
  ['0', '1', '2', '3', '4', '5', '6', '7', '8', '9', 'A', 'B', 'C', 'D', 'E', 'F'].getD n.toNat '0'

/-- A line of a listing: the word in two hexadecimal digits before the text (R59). -/
def listingLine (i : Instr) : List Char :=
  [hexDigit ((encode i).extractLsb' 4 4), hexDigit ((encode i).extractLsb' 0 4), ' ', ' '] ++ commandText i

end Sys2Proof.Machine
end

