-- ==== Sys2Proof/Machine/Transaction.lean ====
section
/-! DEFINITION. The transaction level (00_scope.md R10): a setter is one atomic step
`(state, trace) -> (state', trace ++ Waveform(Frame'))`, and a sequence of command words is the left fold of those steps
(20_memory.md R42); the level a later SPEED ON resumes (40_state_commands.md R69). The register writes are those of exec; the sequencer is left out and the line is idle afterwards (R82).
log 17 says how the two levels stand to each other. -/

namespace Sys2Proof.Machine

/-- What a command leaves when its transmission has run to its end: the waveform of the frame of the new registers has been
appended to the trace `base` the command started from, and the line is idle (R61, R82, R83). -/
def State.transmitted (t : State) (base : List Segment) : State :=
  { t.goIdle with trace := base ++ waveform t.cfg t.frame }

/-- One command as one atomic step (R10). -/
def transact (i : Instr) (s : State) : Host.Outcome State Fault Refusal :=
  match exec i s with
  | .next t => .next (t.transmitted s.trace)
  | .fault r => .fault r
  | .refused r => .refused r

/-- One command word as one atomic step; a reserved word changes nothing (R72). -/
def transactWord (w : Byte) (s : State) : Host.Outcome State Fault Refusal :=
  match decode w with
  | .ok i => transact i s
  | .error _ => .next s

/-- A sequence of command words, in order of acceptance (R42). -/
def transactWords : List Byte → State → Host.Outcome State Fault Refusal
  | [], s => .next s
  | w :: ws, s =>
    match transactWord w s with
    | .next t => transactWords ws t
    | .fault r => .fault r
    | .refused r => .refused r

/-- What `LASTSPD` holds after a command that found `n` in it: SPEED 1 to SPEED 6 store their level, no other command writes
it (R17, R62 to R68, R69 f). -/
def rememberedLevel : Instr → Speed → Speed
  | .speed1, _ => 1
  | .speed2, _ => 2
  | .speed3, _ => 3
  | .speed4, _ => 4
  | .speed5, _ => 5
  | .speed6, _ => 6
  | .speedOff, n | .speedOn, n | .dirLeft, n | .dirRight, n | .lightOff, n | .lightOn, n => n

/-- The level a `SPEED ON` after the commands `is` resolves to, `n` being remembered before them: the last concrete level
among them, and `n` if there is none (R69 a, b, f). -/
def resumeLevel (is : List Instr) (n : Speed) : Speed := is.foldl (fun m i => rememberedLevel i m) n

/-- The edges one word takes from its acceptance until `cmd_ready = 1` again, when the host offers it at once: the
acceptance edge and, for a legal word, `T_total` more (R89). -/
def wordInputs (c : Config) (w : Byte) : List PortIn :=
  offer w :: (if legalWord w then List.replicate (tTotal c) undriven else [])

/-- The drive of a host that "sends the next one when cmd_ready = 1" (R59): one word after the other. -/
def sequenceInputs (c : Config) (ws : List Byte) : List PortIn := ws.flatMap (wordInputs c)

end Sys2Proof.Machine
end

