-- ==== Sys2Proof/Safety.lean ====
section
/-! DEFINITION. What the claims are stated in: runs of the step, the invariant of the reachable states (10_state.md R18, R25,
R26), what a run may assume of the host (no reset, R106). -/

namespace Sys2Proof.Machine

/-- `n` edges, stopping at a refusal. -/
def ticks : Nat → State → Host.Outcome State Fault Refusal
  | 0, s => .next s
  | n + 1, s =>
    match step s with
    | .next t => ticks n t
    | .fault r => .fault r
    | .refused r => .refused r

/-- The host keeps `rst = 0` at the next `n` edges (the premise of R92, R106). -/
def State.noReset (s : State) (n : Nat) : Prop := ∀ p ∈ s.inputs.take n, p.rst = false

/-- The fourteen values of `FANCTL` (R18). -/
def legalFanCtl : List Byte :=
  [0x00, 0x01, 0x02, 0x03, 0x04, 0x05, 0x06, 0x20, 0x21, 0x22, 0x23, 0x24, 0x25, 0x26]

/-- The device part of the invariant (R18). -/
abbrev State.deviceOk (s : State) : Prop :=
  s.fanAddr = s.cfg.addr ∧ s.fanCtl ∈ legalFanCtl ∧ (s.lightCtl = lightOffByte ∨ s.lightCtl = s.cfg.lightOn) ∧
    concreteLevel s.lastSpd = true

/-- The transmitter while idle: the line is high and the position is 0 (R25, R26). -/
abbrev State.idleOk (s : State) : Prop :=
  s.tx = .high ∧ s.rep = 0 ∧ s.slot = 0 ∧ s.half = false ∧ s.cnt = 0

/-- The transmitter while busy (R25, R26): the counter runs inside the segment of its position, the line has that segment's
level, the repeat index is in range, and a burst pause is only ever played at a burst boundary (R81). -/
abbrev State.runningOk (s : State) : Prop :=
  1 ≤ s.cnt ∧ s.cnt ≤ s.segDur ∧ s.tx = s.segLevel ∧ s.rep < s.cfg.nRepeats ∧
    (s.slot = 25 → s.half = true → burstBoundary s.cfg s.rep = true)

/-- The invariant: the block could be built (R6), the device registers hold legal values (R18), the transmitter is idle or
inside a waveform (R25, R26). -/
abbrev State.inv (s : State) : Prop :=
  s.cfg.wf = true ∧ s.deviceOk ∧ (s.busy = false → s.idleOk) ∧ (s.busy = true → s.runningOk)

/-- The ghost trace beside the registers: every segment lasts at least one microsecond (R9), and while busy the last one is
the segment being played (log 4). -/
abbrev State.traceOk (s : State) : Prop :=
  (∀ g ∈ s.trace, 1 ≤ g.dur) ∧ (s.busy = true → s.trace.getLast? = some ⟨s.segLevel, s.segDur⟩)

/-- Equal but for what the host still drives. -/
def sameButInputs (s t : State) : Prop := { s with inputs := [] } = { t with inputs := [] }

/-- The same four device registers. -/
abbrev sameDevice (s t : State) : Prop :=
  s.fanAddr = t.fanAddr ∧ s.fanCtl = t.fanCtl ∧ s.lightCtl = t.lightCtl ∧ s.lastSpd = t.lastSpd

/-- The frames a block can send: its address, one of the fourteen fan control bytes, the light byte off or on (R50). -/
def legalFrames (c : Config) : List Frame :=
  legalFanCtl.flatMap (fun b => [frameOf c.addr b lightOffByte, frameOf c.addr b c.lightOn])

/-- The SPEED commands with a concrete level (R62) and their level. -/
def levelRows : List (Instr × Speed) :=
  [(.speed1, 1), (.speed2, 2), (.speed3, 3), (.speed4, 4), (.speed5, 5), (.speed6, 6)]

/-- The SPEED commands (R62 to R64). -/
def speedCommands : List Instr := [.speedOff, .speed1, .speed2, .speed3, .speed4, .speed5, .speed6, .speedOn]

/-- The commands other than the six concrete levels: none of them writes `LASTSPD` (R19). -/
def nonLevelCommands : List Instr := [.speedOff, .speedOn, .dirLeft, .dirRight, .lightOff, .lightOn]

/-- A list of commands as atomic steps (R42). -/
def transactAll : List Instr → State → Host.Outcome State Fault Refusal
  | [], s => .next s
  | i :: is, s =>
    match transact i s with
    | .next t => transactAll is t
    | .fault r => .fault r
    | .refused r => .refused r

/-- The registers at the edge that accepts a command which gives `FANCTL`, `LIGHTCTL`, `LASTSPD` the values shown: those
writes and SeqStart (R61, R86), written out. The ghost trace is left alone. -/
def State.started (s : State) (fanCtl lightCtl : Byte) (lastSpd : Speed) : State :=
  { s with
    fanCtl := fanCtl, lightCtl := lightCtl, lastSpd := lastSpd, busy := true, rep := 0, slot := 0, half := false,
    cnt := 500, tx := .low }

/-- The state when that command's transmission is over (R61, R82, R83), written out: the registers, the idle line, the
waveform of the frame of the new registers appended to the trace. -/
def State.sent (s : State) (fanCtl lightCtl : Byte) (lastSpd : Speed) : State :=
  { s with
    fanCtl := fanCtl, lightCtl := lightCtl, lastSpd := lastSpd, busy := false, rep := 0, slot := 0, half := false,
    cnt := 0, tx := .high, trace := s.trace ++ waveform s.cfg (s.fanAddr ++ fanCtl ++ lightCtl) }

/-- The levels of the line after an edge and after each of the `n - 1` edges that follow, from the state after the first
(R92). -/
def lineOver : Nat → State → List Level
  | 0, _ => []
  | n + 1, s =>
    s.tx :: match step s with
      | .next t => lineOver n t
      | .fault _ => []
      | .refused _ => []

/-- The words accepted at the next `n` edges, in order (R33, R42). -/
def acceptedWords : Nat → State → List Byte
  | 0, _ => []
  | n + 1, s =>
    (if s.accepts then [s.pins.cmdWord] else []) ++ match step s with
      | .next t => acceptedWords n t
      | .fault _ => []
      | .refused _ => []

end Sys2Proof.Machine
end

