-- ==== Sys2Proof/Certificates/Slice0/Obligations.lean ====
section
/-! DEFINITION. The statements for the provers, made from the numbered rules of spec/. Statements hold for every parameter
record unless they name one, and for every drive of the host unless they say `noReset`. -/

open Sys2Proof Sys2Proof.Machine

/-! ### Command words and their text -/

/-- R56: the twelve legal words decode, each to its command, and no other word decodes. -/
def Obligations.DecodeMatchesOpcodeMap : Prop :=
  ∀ (w : Byte) (i : Instr), decode w = .ok i ↔
    (w, i) ∈ [(0x10#8, Instr.speedOff), (0x11#8, .speed1), (0x12#8, .speed2), (0x13#8, .speed3), (0x14#8, .speed4),
      (0x15#8, .speed5), (0x16#8, .speed6), (0x17#8, .speedOn), (0x20#8, .dirLeft), (0x21#8, .dirRight),
      (0x30#8, .lightOff), (0x31#8, .lightOn)]

/-- R57: the reserved words are those of the three ranges, each rejected on its ground, 244 in all. -/
def Obligations.ReservedWordsRejectedByGround : Prop :=
  (∀ w : Byte,
    (decode w = .error .op ↔ opField w ∉ [1#4, 2#4, 3#4]) ∧
    (decode w = .error .z ↔ opField w ∈ [1#4, 2#4, 3#4] ∧ zField w = 1#1) ∧
    (decode w = .error .arg ↔ opField w ∈ [2#4, 3#4] ∧ zField w = 0#1 ∧ w.extractLsb' 1 2 ≠ 0#2)) ∧
  ((List.range 256).filter (fun n => !legalWord (BitVec.ofNat 8 n))).length = 244

/-- R48: every command's word has `op`, `z = 0` and `arg` in their places and decodes to that command; a word that decodes
is the word of its command. -/
def Obligations.EncodeDecodeRoundTrip : Prop :=
  (∀ i : Instr, i.wf = true → decode (encode i) = .ok i ∧
    opField (encode i) = i.op ∧ zField (encode i) = 0#1 ∧ argField (encode i) = i.arg) ∧
  (∀ (w : Byte) (i : Instr), decode w = .ok i → encode i = w)

/-- R59, R60: the text of a command, the source's call and the four pseudo-instructions stand for their command, and a listing
shows the word's two hexadecimal digits before the text. The table gives command, high and low digit, text and call; the
third clause says that the digits are those of the command's word. -/
def Obligations.AssemblerSpellings : Prop :=
  (∀ r : Instr × Char × Char × List Char × List Char, r ∈
    [ (Instr.speedOff, '1', '0',
        ['S', 'P', 'E', 'E', 'D', ' ', 'O', 'F', 'F'],
        ['s', 'e', 't', 'S', 'p', 'e', 'e', 'd', '(', 'O', 'F', 'F', ')']),
      (.speed1, '1', '1',
        ['S', 'P', 'E', 'E', 'D', ' ', '1'],
        ['s', 'e', 't', 'S', 'p', 'e', 'e', 'd', '(', '1', ')']),
      (.speed2, '1', '2',
        ['S', 'P', 'E', 'E', 'D', ' ', '2'],
        ['s', 'e', 't', 'S', 'p', 'e', 'e', 'd', '(', '2', ')']),
      (.speed3, '1', '3',
        ['S', 'P', 'E', 'E', 'D', ' ', '3'],
        ['s', 'e', 't', 'S', 'p', 'e', 'e', 'd', '(', '3', ')']),
      (.speed4, '1', '4',
        ['S', 'P', 'E', 'E', 'D', ' ', '4'],
        ['s', 'e', 't', 'S', 'p', 'e', 'e', 'd', '(', '4', ')']),
      (.speed5, '1', '5',
        ['S', 'P', 'E', 'E', 'D', ' ', '5'],
        ['s', 'e', 't', 'S', 'p', 'e', 'e', 'd', '(', '5', ')']),
      (.speed6, '1', '6',
        ['S', 'P', 'E', 'E', 'D', ' ', '6'],
        ['s', 'e', 't', 'S', 'p', 'e', 'e', 'd', '(', '6', ')']),
      (.speedOn, '1', '7',
        ['S', 'P', 'E', 'E', 'D', ' ', 'O', 'N'],
        ['s', 'e', 't', 'S', 'p', 'e', 'e', 'd', '(', 'O', 'N', ')']),
      (.dirLeft, '2', '0',
        ['D', 'I', 'R', ' ', 'L', 'E', 'F', 'T'],
        ['s', 'e', 't', 'D', 'i', 'r', 'e', 'c', 't', 'i', 'o', 'n', '(', 'L', 'E', 'F', 'T', ')']),
      (.dirRight, '2', '1',
        ['D', 'I', 'R', ' ', 'R', 'I', 'G', 'H', 'T'],
        ['s', 'e', 't', 'D', 'i', 'r', 'e', 'c', 't', 'i', 'o', 'n', '(', 'R', 'I', 'G', 'H', 'T', ')']),
      (.lightOff, '3', '0',
        ['L', 'I', 'G', 'H', 'T', ' ', 'O', 'F', 'F'],
        ['s', 'e', 't', 'L', 'i', 'g', 'h', 't', '(', 'O', 'F', 'F', ')']),
      (.lightOn, '3', '1',
        ['L', 'I', 'G', 'H', 'T', ' ', 'O', 'N'],
        ['s', 'e', 't', 'L', 'i', 'g', 'h', 't', '(', 'O', 'N', ')']) ] →
    assembleLine r.2.2.2.1 = some r.1 ∧ assembleLine r.2.2.2.2 = some r.1 ∧
      commandText r.1 = r.2.2.2.1 ∧ setterCallText r.1 = r.2.2.2.2 ∧
      listingLine r.1 = [r.2.1, r.2.2.1, ' ', ' '] ++ r.2.2.2.1) ∧
  (∀ i : Instr, assembleLine (commandText i) = some i ∧ assembleLine (setterCallText i) = some i) ∧
  (∀ i : Instr,
    listingLine i =
      [['0', '1', '2', '3', '4', '5', '6', '7', '8', '9', 'A', 'B', 'C', 'D', 'E', 'F'].getD ((encode i).toNat / 16) ' ',
        ['0', '1', '2', '3', '4', '5', '6', '7', '8', '9', 'A', 'B', 'C', 'D', 'E', 'F'].getD ((encode i).toNat % 16) ' ',
        ' ', ' '] ++ commandText i) ∧
  assembleLine ['F', 'A', 'N', ' ', 'O', 'N'] = some .speedOn ∧
  assembleLine ['F', 'A', 'N', ' ', 'O', 'F', 'F'] = some .speedOff ∧
  assembleLine ['S', 'U', 'M', 'M', 'E', 'R'] = some .dirLeft ∧
  assembleLine ['W', 'I', 'N', 'T', 'E', 'R'] = some .dirRight ∧
  listingLine .speed3 = ['1', '3', ' ', ' ', 'S', 'P', 'E', 'E', 'D', ' ', '3']

/-- R59: letter case and a comment after `;` do not change what a line stands for. -/
def Obligations.AssemblerIgnoresCaseAndComment : Prop :=
  ∀ line comment : List Char,
    assembleLine (line.map Char.toUpper) = assembleLine line ∧
    assembleLine (line ++ [';'] ++ comment) = assembleLine line

/-! ### The edge -/

/-- R90: the priority order of an edge, and the outputs after it. -/
def Obligations.EdgePriorityOrder : Prop :=
  ∀ s : State, s.cfg.wf = true →
    (s.pins.rst = true → step s = .next s.advancePins.resetEdge) ∧
    (s.pins.rst = false → s.busy = true → step s = .next s.advancePins.seqTick) ∧
    (s.pins.rst = false → s.busy = false → s.pins.cmdValid = true → ∀ i, decode s.pins.cmdWord = .ok i →
      step s = exec i s.advancePins) ∧
    (s.pins.rst = false → s.busy = false → s.pins.cmdValid = true → ∀ r, decode s.pins.cmdWord = .error r →
      step s = .next s.advancePins) ∧
    (s.pins.rst = false → s.busy = false → s.pins.cmdValid = false → step s = .next s.advancePins) ∧
    (∀ t, step s = .next t → t.outputs =
      { cmdReady := !t.busy, busy := t.busy, tx := t.tx, stValid := !t.busy,
        stSpeed := t.fanCtl.extractLsb' 0 3, stDir := t.fanCtl.getLsbD 5, stLight := t.lightCtl != 0x00#8 })

/-- A word accepted by the handshake runs the command it decodes to: the step is exec of that command, the host's drive moved
on by one edge; `accepts` is R33's condition. -/
def Obligations.StepRunsDecodedCommand : Prop :=
  (∀ s : State, s.accepts = true ↔ s.pins.rst = false ∧ s.pins.cmdValid = true ∧ s.busy = false) ∧
  (∀ (s : State) (i : Instr), s.cfg.wf = true → s.accepts = true → decode s.pins.cmdWord = .ok i →
    step s = exec i s.advancePins) ∧
  (∀ (s : State) (i : Instr), s.cfg.wf = true →
    step (s.withFetchWord 8 (encode i).toNat) = exec i (s.withFetchWord 8 (encode i).toNat).advancePins)

/-- R72: a reserved word is consumed and changes nothing. -/
def Obligations.ReservedWordHasNoEffect : Prop :=
  ∀ (s : State) (r : Reserved), s.cfg.wf = true → s.accepts = true → decode s.pins.cmdWord = .error r →
    step s = .next { s with inputs := s.inputs.tail } ∧
    transactWord s.pins.cmdWord s = .next s

/-- R33: what is offered at an edge that does not accept it has no effect of any kind. -/
def Obligations.OfferNotAcceptedHasNoEffect : Prop :=
  ∀ (s : State) (p q : PortIn) (rest : List PortIn), p.rst = q.rst →
    (s.busy = true ∨ p.rst = true ∨ (p.cmdValid = false ∧ q.cmdValid = false)) →
    step { s with inputs := p :: rest } = step { s with inputs := q :: rest }

/-- R91, R46: while a transmission runs the only input looked at is `rst`: two hosts that keep `rst = 0` and drive anything
else get the same run. -/
def Obligations.RunningTransmissionIgnoresHost : Prop :=
  ∀ (n : Nat) (s : State) (ps qs : List PortIn), s.cfg.wf = true →
    (∀ p ∈ ps.take n, p.rst = false) → (∀ q ∈ qs.take n, q.rst = false) →
    (∀ j, j < n → ∃ u, ticks j { s with inputs := ps } = .next u ∧ u.busy = true) →
    ∃ u v, ticks n { s with inputs := ps } = .next u ∧ ticks n { s with inputs := qs } = .next v ∧ sameButInputs u v

/-- R97, R89: at the edge that ends a transmission (`CNT` is 1 in the trailer of the last repeat, where no burst pause follows)
the block goes idle whatever `cmd_valid` and `cmd_word` carry, the device registers stay, and what is offered is not accepted
before the next edge, so that the line is high for at least one tick between two transmissions (R115). The second clause:
that is the only edge without a reset at which a transmission ends. The third, that the ghost trace does not grow there, is
the model's choice (log 4). -/
def Obligations.EndEdgeAcceptsNothing : Prop :=
  (∀ s : State, s.cfg.wf = true → s.busy = true → s.pins.rst = false → s.cnt = 1 → s.slot = 25 →
    s.rep + 1 = s.cfg.nRepeats →
    acceptedWords 1 s = [] ∧
    ∃ t, step s = .next t ∧ t.busy = false ∧ t.tx = .high ∧ sameDevice s t ∧
      { t with trace := s.trace } =
        { s with busy := false, tx := .high, rep := 0, slot := 0, half := false, cnt := 0, inputs := s.inputs.tail } ∧
      (t.accepts = true ↔ t.pins.rst = false ∧ t.pins.cmdValid = true)) ∧
  (∀ s t : State, s.inv → s.busy = true → s.pins.rst = false → step s = .next t → t.busy = false →
    s.cnt = 1 ∧ s.slot = 25 ∧ s.rep + 1 = s.cfg.nRepeats ∧ (s.half = true ∨ burstBoundary s.cfg s.rep = false)) ∧
  (∀ s t : State, s.inv → s.busy = true → s.pins.rst = false → step s = .next t → t.busy = false → t.trace = s.trace)

/-! ### The commands -/

/-- R62: SPEED 1 to SPEED 6. At the tick level the registers are written and the sequencer starts; at the transaction level the
frame of the new values is sent. -/
def Obligations.SpeedLevelResult : Prop :=
  ∀ (i : Instr) (n : Speed) (s : State),
    (i, n) ∈ [(Instr.speed1, 1#3), (.speed2, 2#3), (.speed3, 3#3), (.speed4, 4#3), (.speed5, 5#3), (.speed6, 6#3)] →
    encode i = 0x10#8 ||| n.zeroExtend 8 ∧
    (∃ tr, exec i s =
      .next { s.started ((s.fanCtl &&& 0xF0#8) ||| n.zeroExtend 8) s.lightCtl n with trace := tr }) ∧
    transact i s = .next (s.sent ((s.fanCtl &&& 0xF0#8) ||| n.zeroExtend 8) s.lightCtl n) ∧
    (s.started ((s.fanCtl &&& 0xF0#8) ||| n.zeroExtend 8) s.lightCtl n).dirFlag = s.dirFlag

/-- R63: SPEED ON resolves to `LASTSPD`, which it leaves alone, wherever `LASTSPD` holds a concrete level (R17); 7 is never
stored, before any level the speed is 1, a running fan keeps its level when that is the remembered one, and SPEED OFF commands
before it do not disturb the resumed level. -/
def Obligations.SpeedOnResult : Prop :=
  ∀ s : State, 1 ≤ s.lastSpd.toNat → s.lastSpd.toNat ≤ 6 →
    encode .speedOn = 0x17#8 ∧
    (∃ tr, exec .speedOn s =
      .next { s.started ((s.fanCtl &&& 0xF0#8) ||| s.lastSpd.zeroExtend 8) s.lightCtl s.lastSpd with trace := tr }) ∧
    transact .speedOn s = .next (s.sent ((s.fanCtl &&& 0xF0#8) ||| s.lastSpd.zeroExtend 8) s.lightCtl s.lastSpd) ∧
    spdField ((s.fanCtl &&& 0xF0#8) ||| s.lastSpd.zeroExtend 8) ≠ 7#4 ∧
    (s.lastSpd = lastSpdReset → spdField ((s.fanCtl &&& 0xF0#8) ||| s.lastSpd.zeroExtend 8) = 1#4) ∧
    (spdField s.fanCtl = s.lastSpd.zeroExtend 4 → (s.fanCtl &&& 0xF0#8) ||| s.lastSpd.zeroExtend 8 = s.fanCtl) ∧
    (s.started ((s.fanCtl &&& 0xF0#8) ||| s.lastSpd.zeroExtend 8) s.lightCtl s.lastSpd).dirFlag = s.dirFlag ∧
    (∀ k : Nat, ∃ t, transactAll (List.replicate k .speedOff ++ [.speedOn]) s = .next t ∧
      t.fanCtl = (s.fanCtl &&& 0xF0#8) ||| s.lastSpd.zeroExtend 8 ∧ t.lastSpd = s.lastSpd)

/-- R64: SPEED OFF. -/
def Obligations.SpeedOffResult : Prop :=
  ∀ s : State,
    encode .speedOff = 0x10#8 ∧
    (∃ tr, exec .speedOff s = .next { s.started (s.fanCtl &&& 0xF0#8) s.lightCtl s.lastSpd with trace := tr }) ∧
    transact .speedOff s = .next (s.sent (s.fanCtl &&& 0xF0#8) s.lightCtl s.lastSpd) ∧
    (s.started (s.fanCtl &&& 0xF0#8) s.lightCtl s.lastSpd).dirFlag = s.dirFlag

/-- R65: DIR LEFT. -/
def Obligations.DirLeftResult : Prop :=
  ∀ s : State,
    encode .dirLeft = 0x20#8 ∧
    (∃ tr, exec .dirLeft s = .next { s.started (s.fanCtl &&& 0x0F#8) s.lightCtl s.lastSpd with trace := tr }) ∧
    transact .dirLeft s = .next (s.sent (s.fanCtl &&& 0x0F#8) s.lightCtl s.lastSpd) ∧
    (s.started (s.fanCtl &&& 0x0F#8) s.lightCtl s.lastSpd).dirFlag = false

/-- R66: DIR RIGHT. -/
def Obligations.DirRightResult : Prop :=
  ∀ s : State,
    encode .dirRight = 0x21#8 ∧
    (∃ tr, exec .dirRight s =
      .next { s.started ((s.fanCtl &&& 0x0F#8) ||| 0x20#8) s.lightCtl s.lastSpd with trace := tr }) ∧
    transact .dirRight s = .next (s.sent ((s.fanCtl &&& 0x0F#8) ||| 0x20#8) s.lightCtl s.lastSpd) ∧
    (s.started ((s.fanCtl &&& 0x0F#8) ||| 0x20#8) s.lightCtl s.lastSpd).dirFlag = true

/-- R67: LIGHT OFF. -/
def Obligations.LightOffResult : Prop :=
  ∀ s : State,
    encode .lightOff = 0x30#8 ∧
    (∃ tr, exec .lightOff s = .next { s.started s.fanCtl 0x00#8 s.lastSpd with trace := tr }) ∧
    transact .lightOff s = .next (s.sent s.fanCtl 0x00#8 s.lastSpd) ∧
    (s.started s.fanCtl 0x00#8 s.lastSpd).lightFlag = false

/-- R68: LIGHT ON; the light flag is set because `LIGHT_ON` is not zero (R6). -/
def Obligations.LightOnResult : Prop :=
  ∀ s : State,
    encode .lightOn = 0x31#8 ∧
    (∃ tr, exec .lightOn s = .next { s.started s.fanCtl s.cfg.lightOn s.lastSpd with trace := tr }) ∧
    transact .lightOn s = .next (s.sent s.fanCtl s.cfg.lightOn s.lastSpd) ∧
    (s.cfg.wf = true → (s.started s.fanCtl s.cfg.lightOn s.lastSpd).lightFlag = true)

/-- The two places where the spec asks a model to refuse (R6 and U5; U7): parameters outside their constraints, SPEED ON with
`LASTSPD` 0 or 7. Nothing else is refused: from every other state every edge and every command answers a next state. -/
def Obligations.OnlyTheSpecsRefusals : Prop :=
  (∀ s : State, s.cfg.wf = false → step s = .refused .configIllFormed) ∧
  (∀ s : State, concreteLevel s.lastSpd = false → exec .speedOn s = .refused .lastSpdOutOfRange) ∧
  (∀ (i : Instr) (s : State), i ≠ .speedOn ∨ concreteLevel s.lastSpd = true → ∃ t, exec i s = .next t) ∧
  (∀ s : State, s.cfg.wf = true → concreteLevel s.lastSpd = true → ∃ t, step s = .next t)

/-- The frame of the twelve commands at the edge that accepts one (R19, R69 c, e, f, R70): nothing but the registers R19
names is written, and a write to `FANCTL` replaces one nibble. The last clause, that the trace gets the low part of the start
symbol, is the model's choice (log 4). -/
def Obligations.CommandFrame : Prop :=
  ∀ (i : Instr) (s t : State), exec i s = .next t →
    t.cfg = s.cfg ∧ t.fanAddr = s.fanAddr ∧ t.inputs = s.inputs ∧ t.past = s.past ∧
    (i ∈ speedCommands → dirField t.fanCtl = dirField s.fanCtl) ∧
    (∀ n, (i, n) ∈ levelRows → spdField t.fanCtl = n.zeroExtend 4 ∧ t.lastSpd = n) ∧
    (i = .speedOn → spdField t.fanCtl = s.lastSpd.zeroExtend 4) ∧
    (i = .speedOff → spdField t.fanCtl = 0#4) ∧
    (i = .dirLeft ∨ i = .dirRight → spdField t.fanCtl = spdField s.fanCtl) ∧
    (i = .dirLeft → dirField t.fanCtl = 0x0#4) ∧
    (i = .dirRight → dirField t.fanCtl = 0x2#4) ∧
    (i = .lightOff ∨ i = .lightOn → t.fanCtl = s.fanCtl) ∧
    (i ≠ .lightOff → i ≠ .lightOn → t.lightCtl = s.lightCtl) ∧
    (i ∈ nonLevelCommands → t.lastSpd = s.lastSpd) ∧
    t.trace = s.trace ++ [⟨.low, 500⟩]

/-- R69 g, h: every command sends exactly one waveform, that of the frame of the registers it leaves, and starts it at the
edge that accepts it (R86). -/
def Obligations.EveryCommandTransmits : Prop :=
  ∀ (i : Instr) (s t u : State), exec i s = .next t → transact i s = .next u →
    u.trace = s.trace ++ waveform s.cfg (frameOf u.fanAddr u.fanCtl u.lightCtl) ∧ sameDevice t u ∧ u.busy = false ∧
    t.busy = true ∧ t.rep = 0 ∧ t.slot = 0 ∧ t.half = false ∧ t.cnt = 500 ∧ t.tx = .low

/-- R69 d: LIGHT OFF followed by LIGHT ON gives the ON byte, whatever the fan does. -/
def Obligations.LightOffThenOn : Prop :=
  ∀ s : State, ∃ t, transactAll [.lightOff, .lightOn] s = .next t ∧ t.lightCtl = s.cfg.lightOn ∧ t.fanCtl = s.fanCtl ∧
    t.lastSpd = s.lastSpd

/-- R69 a, f: SPEED ON resolves to the last concrete level set, whatever SPEED OFF, SPEED ON, DIR and LIGHT commands came
between. -/
def Obligations.ResumeLastLevel : Prop :=
  ∀ (i : Instr) (n : Speed) (between : List Instr) (s : State), (i, n) ∈ levelRows →
    (∀ x ∈ between, x ∈ nonLevelCommands) →
    ∃ t, transactAll ([i] ++ between ++ [.speedOn]) s = .next t ∧ spdField t.fanCtl = n.zeroExtend 4 ∧ t.lastSpd = n

/-- R69 b: before any concrete level has been set since reset, SPEED ON resolves to level 1. -/
def Obligations.ResumeDefaultLevel : Prop :=
  ∀ (c : Config) (before : List Instr), (∀ x ∈ before, x ∈ nonLevelCommands) →
    ∃ t, transactAll (before ++ [.speedOn]) (State.resetWith c) = .next t ∧ spdField t.fanCtl = 1#4

/-- R69, whole, with its letters. (a) After any sequence of commands SPEED ON resolves to the last concrete level in it (the
level remembered before it, if it has none); (b) from reset, with no concrete level before, to level 1; (c) DIR keeps the
speed nibble, SPEED the direction nibble; (d) LIGHT OFF then LIGHT ON gives the ON byte; (e) LIGHT keeps `FANCTL` and
`LASTSPD`, SPEED and DIR keep `LIGHTCTL`; (f) only SPEED 1 to SPEED 6 change `LASTSPD`, DIR and LIGHT between a level and
SPEED ON do not disturb it; (g) one transmission of `N_REPEATS` repeats of one frame; (h) that of the registers after the
command; (i) the invariant of R18 is kept. -/
def Obligations.CommandSetLaws : Prop :=
  (∀ (is : List Instr) (s : State), concreteLevel s.lastSpd = true →
    ∃ t, transactAll (is ++ [.speedOn]) s = .next t ∧
      spdField t.fanCtl = (resumeLevel is s.lastSpd).zeroExtend 4 ∧ t.lastSpd = resumeLevel is s.lastSpd) ∧
  (∀ (before after : List Instr) (i : Instr) (n m : Speed), (i, n) ∈ levelRows → (∀ x ∈ after, x ∈ nonLevelCommands) →
    resumeLevel (before ++ [i] ++ after) m = n ∧ resumeLevel after m = m) ∧
  (∀ (c : Config) (before : List Instr), (∀ x ∈ before, x ∈ nonLevelCommands) →
    ∃ t, transactAll (before ++ [.speedOn]) (State.resetWith c) = .next t ∧ spdField t.fanCtl = 1#4) ∧
  (∀ s : State, ∃ t, transactAll [.lightOff, .lightOn] s = .next t ∧ t.lightCtl = s.cfg.lightOn) ∧
  (∀ (i : Instr) (s t u : State), exec i s = .next t → transact i s = .next u →
    sameDevice t u ∧
    (i = .dirLeft ∨ i = .dirRight → spdField t.fanCtl = spdField s.fanCtl) ∧
    (i ∈ speedCommands → dirField t.fanCtl = dirField s.fanCtl) ∧
    (i = .lightOff ∨ i = .lightOn → t.fanCtl = s.fanCtl ∧ t.lastSpd = s.lastSpd) ∧
    (i ∈ speedCommands ∨ i = .dirLeft ∨ i = .dirRight → t.lightCtl = s.lightCtl) ∧
    ((∃ n, (i, n) ∈ levelRows ∧ t.lastSpd = n) ∨ i ∈ nonLevelCommands ∧ t.lastSpd = s.lastSpd) ∧
    u.trace = s.trace ++
      (List.range s.cfg.nRepeats).flatMap (fun r =>
        repeatBody (frameOf u.fanAddr u.fanCtl u.lightCtl) ++ [⟨.low, s.cfg.tGap⟩] ++ burstPause s.cfg r) ∧
    (s.deviceOk → t.deviceOk ∧ u.deviceOk))

/-! ### The waveform -/

/-- R36, R37, R74: slots 1 to 24 carry the address byte, the fan control byte, the light control byte, each most significant
bit first. -/
def Obligations.FrameBitOrder : Prop :=
  ∀ (a b c : Byte) (i : Nat), 1 ≤ i → i ≤ 8 →
    frameBit (frameOf a b c) i = a.getLsbD (8 - i) ∧
    frameBit (frameOf a b c) (8 + i) = b.getLsbD (8 - i) ∧
    frameBit (frameOf a b c) (16 + i) = c.getLsbD (8 - i)

/-- R78: every symbol is `LOW` then `HIGH`, its two durations add to 1500; the low part is 500 for start and one, 1000 for
zero. The sequencer's durations (R87) are those of the symbols. -/
def Obligations.SymbolShape : Prop :=
  (startSym = [⟨.low, 500⟩, ⟨.high, 1000⟩]) ∧
  (∀ b : Bool, dataSym b = if b then [⟨.low, 500⟩, ⟨.high, 1000⟩] else [⟨.low, 1000⟩, ⟨.high, 500⟩]) ∧
  (∀ (f : Frame) (i : Nat), lowDur f i + highDur f i = 1500 ∧
    [Segment.mk .low (lowDur f i), Segment.mk .high (highDur f i)] =
      if i = 0 then startSym else dataSym (frameBit f i))

/-- R79: a body has 50 segments and lasts 37500 microseconds whatever the frame, and its low time counts the ones. -/
def Obligations.RepeatBodyFigures : Prop :=
  ∀ f : Frame,
    repeatBody f = startSym ++ (List.range 24).flatMap (fun k => dataSym (f.getLsbD (24 - (k + 1)))) ∧
    (repeatBody f).length = 50 ∧ totalDur (repeatBody f) = 37500 ∧
    timeAt .low (repeatBody f) = 500 + 500 * ones f + 1000 * (24 - ones f) ∧
    ones (0xF005DF#24) = 13

/-- R81: the burst pause, where it stands and where there is none; it is added to the gap, the line low through both. -/
def Obligations.BurstPauseRule : Prop :=
  (∀ (c : Config) (r : Nat), burstPause c r =
    if (r + 1) % c.burstLen = 0 ∧ r + 1 < c.nRepeats ∧ c.tBurst > 0 then [⟨.low, c.tBurst⟩] else []) ∧
  (∀ c : Config, burstPause c (c.nRepeats - 1) = []) ∧
  (∀ (c : Config) (r : Nat), c.wf = true → (c.nRepeats ≤ c.burstLen ∨ c.tBurst = 0) → burstPause c r = []) ∧
  (∀ (c : Config) (r : Nat), merge (gap c ++ burstPause c r) =
    [⟨.low, c.tGap + if burstBoundary c r then c.tBurst else 0⟩]) ∧
  (∀ r : Nat, burstBoundary Config.default r = true ↔ r = 6 ∨ r = 13)

/-- R85: the length of a transmission in microseconds and in segments; it does not depend on the frame. -/
def Obligations.WaveformLength : Prop :=
  (∀ (c : Config) (f : Frame),
    totalDur (waveform c f) =
      c.nRepeats * (25 * 1500 + c.tGap) + (if c.tBurst = 0 then 0 else (c.nRepeats - 1) / c.burstLen) * c.tBurst ∧
    tTotal c = totalDur (waveform c f) ∧ tRepeat c = 25 * 1500 + c.tGap ∧
    (waveform c f).length = c.nRepeats * 51 + (if c.tBurst = 0 then 0 else (c.nRepeats - 1) / c.burstLen)) ∧
  tTotal Config.default = 937500 ∧ (∀ f : Frame, (waveform Config.default f).length = 1073)

/-- The merged form of a waveform has 50 segments a repeat and the last gap (R83's example: 1051 with the defaults). -/
def Obligations.MergedWaveformLength : Prop :=
  ∀ (c : Config) (f : Frame), c.wf = true → (merge (waveform c f)).length = 50 * c.nRepeats + 1

/-- Run-length encoding of the samples of a segment list is its merged form (R12, R92). -/
def Obligations.RunLengthsOfSamples : Prop :=
  ∀ w : List Segment, (∀ g ∈ w, 1 ≤ g.dur) → runLengths (samples w) = merge w

/-! ### The sequencer -/

/-- R88, R89: the moves of the sequencer between segments and at the end of a repeat, and the edge at which the transmission
of an accepted command ends, `T_total` edges after its acceptance: not earlier, and from there the block is ready. What the
moves do to the ghost trace is left out. -/
def Obligations.SequencerMoves : Prop :=
  (∀ s : State,
    (s.slot.val ≤ 24 → s.half = false →
      { s.nextSegment with trace := s.trace } =
        { s with half := true, tx := .high, cnt := highDur s.frame s.slot.val }) ∧
    (∀ k : Fin 26, s.slot.val ≤ 23 → s.half = true → k.val = s.slot.val + 1 →
      { s.nextSegment with trace := s.trace } =
        { s with slot := k, half := false, tx := .low, cnt := lowDur s.frame k.val }) ∧
    (s.slot.val = 24 → s.half = true →
      { s.nextSegment with trace := s.trace } = { s with slot := 25, half := false, tx := .low, cnt := s.cfg.tGap }) ∧
    (s.slot.val = 25 → s.half = false → burstBoundary s.cfg s.rep = true →
      { s.nextSegment with trace := s.trace } = { s with half := true, tx := .low, cnt := s.cfg.tBurst }) ∧
    (s.slot.val = 25 → s.half = true ∨ burstBoundary s.cfg s.rep = false →
      { s.nextSegment with trace := s.trace } = { s.endRepeat with trace := s.trace }) ∧
    (s.rep + 1 < s.cfg.nRepeats →
      { s.endRepeat with trace := s.trace } =
        { s with rep := s.rep + 1, slot := 0, half := false, tx := .low, cnt := 500 }) ∧
    (s.cfg.nRepeats ≤ s.rep + 1 →
      { s.endRepeat with trace := s.trace } =
        { s with busy := false, tx := .high, rep := 0, slot := 0, half := false, cnt := 0 })) ∧
  (∀ (s t : State) (i : Instr), s.cfg.wf = true → s.accepts = true → decode s.pins.cmdWord = .ok i → step s = .next t →
    t.noReset (tTotal t.cfg) →
    (∀ j, j < tTotal t.cfg → ∃ u, ticks j t = .next u ∧ u.busy = true ∧ u.accepts = false) ∧
    ∃ u, ticks (tTotal t.cfg) t = .next u ∧ u.busy = false ∧ u.outputs.cmdReady = true ∧ u.outputs.stValid = true ∧
      (u.accepts = true ↔ u.pins.rst = false ∧ u.pins.cmdValid = true))

/-- R87: a segment loaded with `CNT = d` holds its level on the line for `d` ticks, whatever the host offers, and then the
sequencer moves to the next segment. That the ghost trace does not grow inside the segment, which the equality of whole
states also says, is the model's choice (log 4). -/
def Obligations.SegmentHoldsItsLevel : Prop :=
  ∀ s : State, s.cfg.wf = true → s.busy = true → 1 ≤ s.cnt → s.noReset s.cnt →
    (∀ j, j < s.cnt → ticks j s = .next { s with cnt := s.cnt - j, inputs := s.inputs.drop j }) ∧
    ticks s.cnt s = .next { s with inputs := s.inputs.drop s.cnt }.nextSegment

/-- R92: after a legal command is accepted and while `rst` stays 0, the line follows `Waveform(Frame')` tick by tick, `busy`
is 1 for exactly `T_total` ticks, the device registers stand still, and the run-length encoding of the sampled line is the
merged waveform. -/
def Obligations.LineFollowsWaveform : Prop :=
  ∀ (s t : State) (i : Instr), s.cfg.wf = true → s.accepts = true → decode s.pins.cmdWord = .ok i → step s = .next t →
    t.noReset (tTotal t.cfg) →
    (∀ (k : Nat) (g : Segment), (waveform t.cfg t.frame)[k]? = some g →
      ∀ j, totalDur ((waveform t.cfg t.frame).take k) ≤ j → j < totalDur ((waveform t.cfg t.frame).take k) + g.dur →
        ∃ u, ticks j t = .next u ∧ u.tx = g.level) ∧
    (∀ j, j < tTotal t.cfg → ∃ u, ticks j t = .next u ∧ u.busy = true ∧ sameDevice t u) ∧
    (∃ u, ticks (tTotal t.cfg) t = .next u ∧ u.tx = .high ∧ u.busy = false ∧ sameDevice t u) ∧
    runLengths (lineOver (tTotal t.cfg) t) = merge (waveform t.cfg t.frame)

/-- R10: the two levels agree. `T_total` ticks after its acceptance a command has left exactly what the atomic step of the
transaction level leaves, trace included (that a trace entry is made when its segment is loaded is log 4). -/
def Obligations.TickLevelRefinesTransaction : Prop :=
  ∀ (s t : State) (i : Instr), s.cfg.wf = true → s.accepts = true → decode s.pins.cmdWord = .ok i → step s = .next t →
    t.noReset (tTotal t.cfg) →
    ∃ u, transact i s.advancePins = .next u ∧
      ticks (tTotal t.cfg) t = .next { u with inputs := t.inputs.drop (tTotal t.cfg) }

/-- R44, R94: from every state of the invariant in which a transmission runs, it ends within `T_total` ticks unless the host
resets the block. -/
def Obligations.RunningTransmissionEnds : Prop :=
  ∀ s : State, s.inv → s.busy = true → s.noReset (tTotal s.cfg) →
    ∃ n u, n ≤ tTotal s.cfg ∧ ticks n s = .next u ∧ u.busy = false ∧ u.tx = .high ∧ sameDevice s u

/-! ### Order of commands -/

/-- R42: whatever the host does short of a reset, a run from an idle state to an idle state leaves the left fold of the
accepted words over the first state, the traces included. -/
def Obligations.CommandsTakeEffectInOrder : Prop :=
  ∀ (n : Nat) (s t : State), s.inv → s.busy = false → s.noReset n → ticks n s = .next t → t.busy = false →
    transactWords (acceptedWords n s) { s with inputs := [] } = .next { t with inputs := [] }

/-- R43: a status read sees exactly the commands accepted so far, all of whose transmissions have ended. -/
def Obligations.StatusReadSeesFinishedCommands : Prop :=
  ∀ (n : Nat) (s t : State) (r : Status), s.inv → s.busy = false → s.noReset n → ticks n s = .next t →
    t.statusRead = some r →
    ∃ u, transactWords (acceptedWords n s) { s with inputs := [] } = .next u ∧ u.statusRead = some r

/-- R59, R42: a host that offers the next word as soon as `cmd_ready = 1` has every word of its sequence accepted, in order,
and the block ends idle with the fold of the sequence; the run takes one edge per word and `T_total` more per legal word. -/
def Obligations.CommandSequenceCompletes : Prop :=
  ∀ (ws : List Byte) (s : State), s.inv → s.busy = false → s.inputs = sequenceInputs s.cfg ws →
    acceptedWords s.inputs.length s = ws ∧
    s.inputs.length = ws.length + (ws.filter legalWord).length * tTotal s.cfg ∧
    ∃ t, ticks s.inputs.length s = .next t ∧ t.busy = false ∧
      transactWords ws { s with inputs := [] } = .next t

/-! ### Reset -/

/-- R28, R29: the reset values, and what the status port shows. -/
def Obligations.ResetValues : Prop :=
  ∀ c : Config, State.reset = State.resetWith Config.default ∧
    (State.resetWith c).fanCtl = 0x00#8 ∧ (State.resetWith c).lightCtl = 0x00#8 ∧ (State.resetWith c).lastSpd = 1#3 ∧
    (State.resetWith c).fanAddr = c.addr ∧ (State.resetWith c).busy = false ∧ (State.resetWith c).tx = .high ∧
    (State.resetWith c).rep = 0 ∧ (State.resetWith c).slot = 0 ∧ (State.resetWith c).half = false ∧
    (State.resetWith c).cnt = 0 ∧ (State.resetWith c).trace = [] ∧
    (State.resetWith c).statusRead = some ⟨0#3, false, false⟩ ∧ (State.resetWith c).outputs.stValid = true

/-- R105: at an edge with `rst = 1` every register takes its reset value, whatever else is going on, a running transmission
and an offered command included (R97, R106); while `rst` stays 1 the block stays in that state and accepts nothing. What
happens to the ghost traces is left out. -/
def Obligations.ResetEdgeLoadsResetValues : Prop :=
  (∀ s : State, s.cfg.wf = true → s.pins.rst = true →
    s.accepts = false ∧
    ∃ t, step s = .next t ∧
      { t with trace := s.trace, past := s.past } =
        { s with
          fanCtl := 0x00#8, lightCtl := 0x00#8, lastSpd := 1#3, busy := false, tx := .high, rep := 0, slot := 0,
          half := false, cnt := 0, inputs := s.inputs.tail }) ∧
  (∀ (n : Nat) (s : State), s.cfg.wf = true → n < s.inputs.length → (∀ p ∈ s.inputs.take (n + 1), p.rst = true) →
    acceptedWords (n + 1) s = [] ∧
    ∃ t, ticks (n + 1) s = .next t ∧
      { t with trace := [], past := [] } =
        { State.resetWith s.cfg with fanAddr := s.fanAddr, inputs := s.inputs.drop (n + 1) })

/-- R108: after a reset edge the block is ready, and a command offered at the first edge with `rst = 0` is accepted there. -/
def Obligations.ReadyAfterReset : Prop :=
  ∀ s t : State, s.cfg.wf = true → s.pins.rst = true → step s = .next t →
    t.outputs.cmdReady = true ∧ t.outputs.stValid = true ∧
    (t.pins.rst = false → t.pins.cmdValid = true → t.accepts = true ∧
      ∀ i, decode t.pins.cmdWord = .ok i → step t = exec i t.advancePins ∧ ∃ u, step t = .next u ∧ u.busy = true)

/-- R107: from reset the line stays high and nothing is transmitted until the first legal command is accepted, however often
the host resets the block or offers reserved words. -/
def Obligations.NothingSentBeforeFirstCommand : Prop :=
  ∀ (n : Nat) (c : Config) (drive : List PortIn) (t : State),
    ticks n { State.resetWith c with inputs := drive } = .next t →
    (∀ w ∈ acceptedWords n { State.resetWith c with inputs := drive }, legalWord w = false) →
    t = { State.resetWith c with inputs := drive.drop n }

/-- What a reset edge does to the ghost traces: the model's choice (log 5; log 4 for the last segment of the trace) between R27's "since reset" and Program 4 of
95_test_vectors.md. The trace is empty again, and the segments sent before go to `past` with the cut segment at the length it
was held. -/
def Obligations.ResetEdgeKeepsPastTrace : Prop :=
  ∀ s t : State, s.inv → s.traceOk → s.pins.rst = true → step s = .next t →
    t.trace = [] ∧
    (s.busy = false → t.past = s.past ++ s.trace) ∧
    (s.busy = true →
      t.past = s.past ++ s.trace.dropLast ++ [⟨s.segLevel, s.segDur + 1 - s.cnt⟩] ∧
      totalDur t.past + s.cnt = totalDur s.past + totalDur s.trace + 1 ∧
      t.past.length = s.past.length + s.trace.length ∧ ∀ g ∈ t.past, g ∈ s.past ∨ 1 ≤ g.dur)

/-! ### Status -/

/-- R71: the status read. -/
def Obligations.StatusReadResult : Prop :=
  ∀ s : State,
    (s.busy = false →
      s.statusRead = some ⟨s.fanCtl.extractLsb' 0 3, s.fanCtl.getLsbD 5, s.lightCtl != 0x00#8⟩) ∧
    (s.busy = true → s.statusRead = none) ∧
    (s.outputs.stValid = true ↔ s.busy = false)

/-- R18, R21 on the status port: in the states of the invariant the speed read is off or a level, never 7, the direction read
is the whole direction nibble, and "light on" means `LIGHTCTL = LIGHT_ON`. -/
def Obligations.StatusOnReachableStates : Prop :=
  ∀ (s : State) (r : Status), s.inv → s.statusRead = some r →
    r.speed.toNat ≤ 6 ∧ r.speed.zeroExtend 4 = spdField s.fanCtl ∧
    dirField s.fanCtl = (if r.dir then 0x2#4 else 0x0#4) ∧
    (r.light = true ↔ s.lightCtl = s.cfg.lightOn) ∧ (r.light = false ↔ s.lightCtl = 0x00#8)

/-! ### Invariants and whole-machine rules -/

/-- The reset state of every block that can be built meets the invariant. -/
def Obligations.ResetMeetsInvariant : Prop :=
  State.reset.inv ∧ State.reset.traceOk ∧
  ∀ (c : Config) (drive : List PortIn), c.wf = true →
    { State.resetWith c with inputs := drive }.inv ∧ { State.resetWith c with inputs := drive }.traceOk

/-- R18, R25, R26: every step, whatever the host does, answers a next state from a state of the invariant and keeps the
invariant. -/
def Obligations.StepKeepsInvariant : Prop :=
  ∀ s : State, s.inv → ∃ t, step s = .next t ∧ t.inv

/-- Every step keeps the ghost trace beside the registers: no empty segment, and while busy the last segment is the one being
played (R9, R27; log 4). -/
def Obligations.StepKeepsTraceInvariant : Prop :=
  ∀ s t : State, s.inv → s.traceOk → step s = .next t → t.traceOk

/-- R50: the frames a block can send, twenty-eight with the default parameters. -/
def Obligations.ReachableFrames : Prop :=
  (∀ s : State, s.inv → s.frame ∈ legalFrames s.cfg) ∧
  (legalFrames Config.default).length = 28 ∧ (legalFrames Config.default).Nodup

/-- R63 b: a running fan's speed is the remembered one; every step keeps that. -/
def Obligations.RunningSpeedIsRemembered : Prop :=
  ∀ s t : State, s.inv → (spdField s.fanCtl ≠ 0#4 → spdField s.fanCtl = s.lastSpd.zeroExtend 4) → step s = .next t →
    spdField t.fanCtl ≠ 0#4 → spdField t.fanCtl = t.lastSpd.zeroExtend 4

/-- R7, R101: the counters fit the widths derived from the parameters (14, 5 and 5 bits with the defaults). -/
def Obligations.CountersFitTheirWidths : Prop :=
  (∀ s : State, s.inv →
    s.cnt < 2 ^ s.cfg.cntWidth ∧ s.rep < 2 ^ s.cfg.repWidth ∧ s.slot.val < 2 ^ slotWidth) ∧
  Config.default.cntWidth = 14 ∧ Config.default.repWidth = 5 ∧ slotWidth = 5

/-- R14, R6: no step writes `FANADDR` or a parameter. -/
def Obligations.AddressAndParametersConstant : Prop :=
  ∀ (n : Nat) (s t : State), ticks n s = .next t → t.fanAddr = s.fanAddr ∧ t.cfg = s.cfg

/-- R17, R19, R69 f: a step leaves `LASTSPD` alone unless it resets the block or accepts SPEED 1 to SPEED 6, which store their
argument. -/
def Obligations.LastSpeedWriters : Prop :=
  ∀ s t : State, step s = .next t →
    (s.pins.rst = true → t.lastSpd = 1#3) ∧
    (s.pins.rst = false → s.accepts = true → 0x11 ≤ s.pins.cmdWord.toNat → s.pins.cmdWord.toNat ≤ 0x16 →
      t.lastSpd = argField s.pins.cmdWord) ∧
    (s.pins.rst = false → ¬ (s.accepts = true ∧ 0x11 ≤ s.pins.cmdWord.toNat ∧ s.pins.cmdWord.toNat ≤ 0x16) →
      t.lastSpd = s.lastSpd)

/-- R40, R42: the device registers change only at an edge that resets the block or accepts a legal word, and a transmission
starts only at the latter. -/
def Obligations.DeviceChangesOnlyAtAcceptance : Prop :=
  ∀ s t : State, step s = .next t → s.pins.rst = false → ¬ (s.accepts = true ∧ legalWord s.pins.cmdWord = true) →
    sameDevice s t ∧ (t.busy = true → s.busy = true)
end

