-- ==== Sys2Proof/Laws/State.lean ====
section
/-! SUPPORT. What every update of the state does to every field, each true by rfl: later proofs rewrite with these and do not
unfold the updates. -/

namespace Sys2Proof.Machine

/-! `State.setFanCtl` -/

@[simp] theorem State.setFanCtl_cfg (s : State) (v : Byte) : (s.setFanCtl v).cfg = s.cfg := rfl
@[simp] theorem State.setFanCtl_fanAddr (s : State) (v : Byte) : (s.setFanCtl v).fanAddr = s.fanAddr := rfl
@[simp] theorem State.setFanCtl_fanCtl (s : State) (v : Byte) : (s.setFanCtl v).fanCtl = v := rfl
@[simp] theorem State.setFanCtl_lightCtl (s : State) (v : Byte) : (s.setFanCtl v).lightCtl = s.lightCtl := rfl
@[simp] theorem State.setFanCtl_lastSpd (s : State) (v : Byte) : (s.setFanCtl v).lastSpd = s.lastSpd := rfl
@[simp] theorem State.setFanCtl_busy (s : State) (v : Byte) : (s.setFanCtl v).busy = s.busy := rfl
@[simp] theorem State.setFanCtl_tx (s : State) (v : Byte) : (s.setFanCtl v).tx = s.tx := rfl
@[simp] theorem State.setFanCtl_rep (s : State) (v : Byte) : (s.setFanCtl v).rep = s.rep := rfl
@[simp] theorem State.setFanCtl_slot (s : State) (v : Byte) : (s.setFanCtl v).slot = s.slot := rfl
@[simp] theorem State.setFanCtl_half (s : State) (v : Byte) : (s.setFanCtl v).half = s.half := rfl
@[simp] theorem State.setFanCtl_cnt (s : State) (v : Byte) : (s.setFanCtl v).cnt = s.cnt := rfl
@[simp] theorem State.setFanCtl_inputs (s : State) (v : Byte) : (s.setFanCtl v).inputs = s.inputs := rfl
@[simp] theorem State.setFanCtl_trace (s : State) (v : Byte) : (s.setFanCtl v).trace = s.trace := rfl
@[simp] theorem State.setFanCtl_past (s : State) (v : Byte) : (s.setFanCtl v).past = s.past := rfl

/-! `State.setLightCtl` -/

@[simp] theorem State.setLightCtl_cfg (s : State) (v : Byte) : (s.setLightCtl v).cfg = s.cfg := rfl
@[simp] theorem State.setLightCtl_fanAddr (s : State) (v : Byte) : (s.setLightCtl v).fanAddr = s.fanAddr := rfl
@[simp] theorem State.setLightCtl_fanCtl (s : State) (v : Byte) : (s.setLightCtl v).fanCtl = s.fanCtl := rfl
@[simp] theorem State.setLightCtl_lightCtl (s : State) (v : Byte) : (s.setLightCtl v).lightCtl = v := rfl
@[simp] theorem State.setLightCtl_lastSpd (s : State) (v : Byte) : (s.setLightCtl v).lastSpd = s.lastSpd := rfl
@[simp] theorem State.setLightCtl_busy (s : State) (v : Byte) : (s.setLightCtl v).busy = s.busy := rfl
@[simp] theorem State.setLightCtl_tx (s : State) (v : Byte) : (s.setLightCtl v).tx = s.tx := rfl
@[simp] theorem State.setLightCtl_rep (s : State) (v : Byte) : (s.setLightCtl v).rep = s.rep := rfl
@[simp] theorem State.setLightCtl_slot (s : State) (v : Byte) : (s.setLightCtl v).slot = s.slot := rfl
@[simp] theorem State.setLightCtl_half (s : State) (v : Byte) : (s.setLightCtl v).half = s.half := rfl
@[simp] theorem State.setLightCtl_cnt (s : State) (v : Byte) : (s.setLightCtl v).cnt = s.cnt := rfl
@[simp] theorem State.setLightCtl_inputs (s : State) (v : Byte) : (s.setLightCtl v).inputs = s.inputs := rfl
@[simp] theorem State.setLightCtl_trace (s : State) (v : Byte) : (s.setLightCtl v).trace = s.trace := rfl
@[simp] theorem State.setLightCtl_past (s : State) (v : Byte) : (s.setLightCtl v).past = s.past := rfl

/-! `State.setLastSpd` -/

@[simp] theorem State.setLastSpd_cfg (s : State) (v : Speed) : (s.setLastSpd v).cfg = s.cfg := rfl
@[simp] theorem State.setLastSpd_fanAddr (s : State) (v : Speed) : (s.setLastSpd v).fanAddr = s.fanAddr := rfl
@[simp] theorem State.setLastSpd_fanCtl (s : State) (v : Speed) : (s.setLastSpd v).fanCtl = s.fanCtl := rfl
@[simp] theorem State.setLastSpd_lightCtl (s : State) (v : Speed) : (s.setLastSpd v).lightCtl = s.lightCtl := rfl
@[simp] theorem State.setLastSpd_lastSpd (s : State) (v : Speed) : (s.setLastSpd v).lastSpd = v := rfl
@[simp] theorem State.setLastSpd_busy (s : State) (v : Speed) : (s.setLastSpd v).busy = s.busy := rfl
@[simp] theorem State.setLastSpd_tx (s : State) (v : Speed) : (s.setLastSpd v).tx = s.tx := rfl
@[simp] theorem State.setLastSpd_rep (s : State) (v : Speed) : (s.setLastSpd v).rep = s.rep := rfl
@[simp] theorem State.setLastSpd_slot (s : State) (v : Speed) : (s.setLastSpd v).slot = s.slot := rfl
@[simp] theorem State.setLastSpd_half (s : State) (v : Speed) : (s.setLastSpd v).half = s.half := rfl
@[simp] theorem State.setLastSpd_cnt (s : State) (v : Speed) : (s.setLastSpd v).cnt = s.cnt := rfl
@[simp] theorem State.setLastSpd_inputs (s : State) (v : Speed) : (s.setLastSpd v).inputs = s.inputs := rfl
@[simp] theorem State.setLastSpd_trace (s : State) (v : Speed) : (s.setLastSpd v).trace = s.trace := rfl
@[simp] theorem State.setLastSpd_past (s : State) (v : Speed) : (s.setLastSpd v).past = s.past := rfl
@[simp] theorem State.setLastSpd_frame (s : State) (v : Speed) : (s.setLastSpd v).frame = s.frame := rfl

/-! `State.setPos` -/

@[simp] theorem State.setPos_cfg (s : State) (r : Nat) (k : Fin 26) (b : Bool) : (s.setPos r k b).cfg = s.cfg := rfl
@[simp] theorem State.setPos_fanAddr (s : State) (r : Nat) (k : Fin 26) (b : Bool) : (s.setPos r k b).fanAddr = s.fanAddr := rfl
@[simp] theorem State.setPos_fanCtl (s : State) (r : Nat) (k : Fin 26) (b : Bool) : (s.setPos r k b).fanCtl = s.fanCtl := rfl
@[simp] theorem State.setPos_lightCtl (s : State) (r : Nat) (k : Fin 26) (b : Bool) : (s.setPos r k b).lightCtl = s.lightCtl := rfl
@[simp] theorem State.setPos_lastSpd (s : State) (r : Nat) (k : Fin 26) (b : Bool) : (s.setPos r k b).lastSpd = s.lastSpd := rfl
@[simp] theorem State.setPos_busy (s : State) (r : Nat) (k : Fin 26) (b : Bool) : (s.setPos r k b).busy = s.busy := rfl
@[simp] theorem State.setPos_tx (s : State) (r : Nat) (k : Fin 26) (b : Bool) : (s.setPos r k b).tx = s.tx := rfl
@[simp] theorem State.setPos_rep (s : State) (r : Nat) (k : Fin 26) (b : Bool) : (s.setPos r k b).rep = r := rfl
@[simp] theorem State.setPos_slot (s : State) (r : Nat) (k : Fin 26) (b : Bool) : (s.setPos r k b).slot = k := rfl
@[simp] theorem State.setPos_half (s : State) (r : Nat) (k : Fin 26) (b : Bool) : (s.setPos r k b).half = b := rfl
@[simp] theorem State.setPos_cnt (s : State) (r : Nat) (k : Fin 26) (b : Bool) : (s.setPos r k b).cnt = s.cnt := rfl
@[simp] theorem State.setPos_inputs (s : State) (r : Nat) (k : Fin 26) (b : Bool) : (s.setPos r k b).inputs = s.inputs := rfl
@[simp] theorem State.setPos_trace (s : State) (r : Nat) (k : Fin 26) (b : Bool) : (s.setPos r k b).trace = s.trace := rfl
@[simp] theorem State.setPos_past (s : State) (r : Nat) (k : Fin 26) (b : Bool) : (s.setPos r k b).past = s.past := rfl
@[simp] theorem State.setPos_frame (s : State) (r : Nat) (k : Fin 26) (b : Bool) : (s.setPos r k b).frame = s.frame := rfl

/-! `State.loadSegment` -/

@[simp] theorem State.loadSegment_cfg (s : State) (l : Level) (d : Nat) : (s.loadSegment l d).cfg = s.cfg := rfl
@[simp] theorem State.loadSegment_fanAddr (s : State) (l : Level) (d : Nat) : (s.loadSegment l d).fanAddr = s.fanAddr := rfl
@[simp] theorem State.loadSegment_fanCtl (s : State) (l : Level) (d : Nat) : (s.loadSegment l d).fanCtl = s.fanCtl := rfl
@[simp] theorem State.loadSegment_lightCtl (s : State) (l : Level) (d : Nat) : (s.loadSegment l d).lightCtl = s.lightCtl := rfl
@[simp] theorem State.loadSegment_lastSpd (s : State) (l : Level) (d : Nat) : (s.loadSegment l d).lastSpd = s.lastSpd := rfl
@[simp] theorem State.loadSegment_busy (s : State) (l : Level) (d : Nat) : (s.loadSegment l d).busy = s.busy := rfl
@[simp] theorem State.loadSegment_tx (s : State) (l : Level) (d : Nat) : (s.loadSegment l d).tx = l := rfl
@[simp] theorem State.loadSegment_rep (s : State) (l : Level) (d : Nat) : (s.loadSegment l d).rep = s.rep := rfl
@[simp] theorem State.loadSegment_slot (s : State) (l : Level) (d : Nat) : (s.loadSegment l d).slot = s.slot := rfl
@[simp] theorem State.loadSegment_half (s : State) (l : Level) (d : Nat) : (s.loadSegment l d).half = s.half := rfl
@[simp] theorem State.loadSegment_cnt (s : State) (l : Level) (d : Nat) : (s.loadSegment l d).cnt = d := rfl
@[simp] theorem State.loadSegment_inputs (s : State) (l : Level) (d : Nat) : (s.loadSegment l d).inputs = s.inputs := rfl
@[simp] theorem State.loadSegment_trace (s : State) (l : Level) (d : Nat) : (s.loadSegment l d).trace = s.trace ++ [⟨l, d⟩] := rfl
@[simp] theorem State.loadSegment_past (s : State) (l : Level) (d : Nat) : (s.loadSegment l d).past = s.past := rfl
@[simp] theorem State.loadSegment_frame (s : State) (l : Level) (d : Nat) : (s.loadSegment l d).frame = s.frame := rfl

/-! `State.goIdle` -/

@[simp] theorem State.goIdle_cfg (s : State) : (s.goIdle).cfg = s.cfg := rfl
@[simp] theorem State.goIdle_fanAddr (s : State) : (s.goIdle).fanAddr = s.fanAddr := rfl
@[simp] theorem State.goIdle_fanCtl (s : State) : (s.goIdle).fanCtl = s.fanCtl := rfl
@[simp] theorem State.goIdle_lightCtl (s : State) : (s.goIdle).lightCtl = s.lightCtl := rfl
@[simp] theorem State.goIdle_lastSpd (s : State) : (s.goIdle).lastSpd = s.lastSpd := rfl
@[simp] theorem State.goIdle_busy (s : State) : (s.goIdle).busy = false := rfl
@[simp] theorem State.goIdle_tx (s : State) : (s.goIdle).tx = .high := rfl
@[simp] theorem State.goIdle_rep (s : State) : (s.goIdle).rep = 0 := rfl
@[simp] theorem State.goIdle_slot (s : State) : (s.goIdle).slot = 0 := rfl
@[simp] theorem State.goIdle_half (s : State) : (s.goIdle).half = false := rfl
@[simp] theorem State.goIdle_cnt (s : State) : (s.goIdle).cnt = 0 := rfl
@[simp] theorem State.goIdle_inputs (s : State) : (s.goIdle).inputs = s.inputs := rfl
@[simp] theorem State.goIdle_trace (s : State) : (s.goIdle).trace = s.trace := rfl
@[simp] theorem State.goIdle_past (s : State) : (s.goIdle).past = s.past := rfl
@[simp] theorem State.goIdle_frame (s : State) : (s.goIdle).frame = s.frame := rfl

/-! `State.seqStart` -/

@[simp] theorem State.seqStart_cfg (s : State) : (s.seqStart).cfg = s.cfg := rfl
@[simp] theorem State.seqStart_fanAddr (s : State) : (s.seqStart).fanAddr = s.fanAddr := rfl
@[simp] theorem State.seqStart_fanCtl (s : State) : (s.seqStart).fanCtl = s.fanCtl := rfl
@[simp] theorem State.seqStart_lightCtl (s : State) : (s.seqStart).lightCtl = s.lightCtl := rfl
@[simp] theorem State.seqStart_lastSpd (s : State) : (s.seqStart).lastSpd = s.lastSpd := rfl
@[simp] theorem State.seqStart_busy (s : State) : (s.seqStart).busy = true := rfl
@[simp] theorem State.seqStart_tx (s : State) : (s.seqStart).tx = .low := rfl
@[simp] theorem State.seqStart_rep (s : State) : (s.seqStart).rep = 0 := rfl
@[simp] theorem State.seqStart_slot (s : State) : (s.seqStart).slot = 0 := rfl
@[simp] theorem State.seqStart_half (s : State) : (s.seqStart).half = false := rfl
@[simp] theorem State.seqStart_cnt (s : State) : (s.seqStart).cnt = tShort := rfl
@[simp] theorem State.seqStart_inputs (s : State) : (s.seqStart).inputs = s.inputs := rfl
@[simp] theorem State.seqStart_trace (s : State) : (s.seqStart).trace = s.trace ++ [⟨.low, tShort⟩] := rfl
@[simp] theorem State.seqStart_past (s : State) : (s.seqStart).past = s.past := rfl
@[simp] theorem State.seqStart_frame (s : State) : (s.seqStart).frame = s.frame := rfl

/-! `State.resetEdge` -/

@[simp] theorem State.resetEdge_cfg (s : State) : (s.resetEdge).cfg = s.cfg := rfl
@[simp] theorem State.resetEdge_fanAddr (s : State) : (s.resetEdge).fanAddr = s.fanAddr := rfl
@[simp] theorem State.resetEdge_fanCtl (s : State) : (s.resetEdge).fanCtl = 0x00 := rfl
@[simp] theorem State.resetEdge_lightCtl (s : State) : (s.resetEdge).lightCtl = lightOffByte := rfl
@[simp] theorem State.resetEdge_lastSpd (s : State) : (s.resetEdge).lastSpd = lastSpdReset := rfl
@[simp] theorem State.resetEdge_busy (s : State) : (s.resetEdge).busy = false := rfl
@[simp] theorem State.resetEdge_tx (s : State) : (s.resetEdge).tx = .high := rfl
@[simp] theorem State.resetEdge_rep (s : State) : (s.resetEdge).rep = 0 := rfl
@[simp] theorem State.resetEdge_slot (s : State) : (s.resetEdge).slot = 0 := rfl
@[simp] theorem State.resetEdge_half (s : State) : (s.resetEdge).half = false := rfl
@[simp] theorem State.resetEdge_cnt (s : State) : (s.resetEdge).cnt = 0 := rfl
@[simp] theorem State.resetEdge_inputs (s : State) : (s.resetEdge).inputs = s.inputs := rfl
@[simp] theorem State.resetEdge_trace (s : State) : (s.resetEdge).trace = [] := rfl
@[simp] theorem State.resetEdge_past (s : State) : (s.resetEdge).past = s.past ++ s.heldTrace := rfl

/-! `State.advancePins` -/

@[simp] theorem State.advancePins_cfg (s : State) : (s.advancePins).cfg = s.cfg := rfl
@[simp] theorem State.advancePins_fanAddr (s : State) : (s.advancePins).fanAddr = s.fanAddr := rfl
@[simp] theorem State.advancePins_fanCtl (s : State) : (s.advancePins).fanCtl = s.fanCtl := rfl
@[simp] theorem State.advancePins_lightCtl (s : State) : (s.advancePins).lightCtl = s.lightCtl := rfl
@[simp] theorem State.advancePins_lastSpd (s : State) : (s.advancePins).lastSpd = s.lastSpd := rfl
@[simp] theorem State.advancePins_busy (s : State) : (s.advancePins).busy = s.busy := rfl
@[simp] theorem State.advancePins_tx (s : State) : (s.advancePins).tx = s.tx := rfl
@[simp] theorem State.advancePins_rep (s : State) : (s.advancePins).rep = s.rep := rfl
@[simp] theorem State.advancePins_slot (s : State) : (s.advancePins).slot = s.slot := rfl
@[simp] theorem State.advancePins_half (s : State) : (s.advancePins).half = s.half := rfl
@[simp] theorem State.advancePins_cnt (s : State) : (s.advancePins).cnt = s.cnt := rfl
@[simp] theorem State.advancePins_inputs (s : State) : (s.advancePins).inputs = s.inputs.tail := rfl
@[simp] theorem State.advancePins_trace (s : State) : (s.advancePins).trace = s.trace := rfl
@[simp] theorem State.advancePins_past (s : State) : (s.advancePins).past = s.past := rfl
@[simp] theorem State.advancePins_frame (s : State) : (s.advancePins).frame = s.frame := rfl

/-! `State.transmitted` -/

@[simp] theorem State.transmitted_cfg (s : State) (base : List Segment) : (s.transmitted base).cfg = s.cfg := rfl
@[simp] theorem State.transmitted_fanAddr (s : State) (base : List Segment) : (s.transmitted base).fanAddr = s.fanAddr := rfl
@[simp] theorem State.transmitted_fanCtl (s : State) (base : List Segment) : (s.transmitted base).fanCtl = s.fanCtl := rfl
@[simp] theorem State.transmitted_lightCtl (s : State) (base : List Segment) : (s.transmitted base).lightCtl = s.lightCtl := rfl
@[simp] theorem State.transmitted_lastSpd (s : State) (base : List Segment) : (s.transmitted base).lastSpd = s.lastSpd := rfl
@[simp] theorem State.transmitted_busy (s : State) (base : List Segment) : (s.transmitted base).busy = false := rfl
@[simp] theorem State.transmitted_tx (s : State) (base : List Segment) : (s.transmitted base).tx = .high := rfl
@[simp] theorem State.transmitted_rep (s : State) (base : List Segment) : (s.transmitted base).rep = 0 := rfl
@[simp] theorem State.transmitted_slot (s : State) (base : List Segment) : (s.transmitted base).slot = 0 := rfl
@[simp] theorem State.transmitted_half (s : State) (base : List Segment) : (s.transmitted base).half = false := rfl
@[simp] theorem State.transmitted_cnt (s : State) (base : List Segment) : (s.transmitted base).cnt = 0 := rfl
@[simp] theorem State.transmitted_inputs (s : State) (base : List Segment) : (s.transmitted base).inputs = s.inputs := rfl
@[simp] theorem State.transmitted_trace (s : State) (base : List Segment) : (s.transmitted base).trace = base ++ waveform s.cfg s.frame := rfl
@[simp] theorem State.transmitted_past (s : State) (base : List Segment) : (s.transmitted base).past = s.past := rfl
@[simp] theorem State.transmitted_frame (s : State) (base : List Segment) : (s.transmitted base).frame = s.frame := rfl

end Sys2Proof.Machine
end

