-- ==== Sys2Proof/Laws/Operands.lean ====
section
/-! SUPPORT. What the nibble replacements and the operand assembly give, field by field (R53 to R55, R70): a question about
at most eleven bits each, decided once here. -/

namespace Sys2Proof.Machine

@[simp] theorem spdField_withSpeed (b : Byte) (n : Speed) : spdField (withSpeed b n) = n.zeroExtend 4 := by
  revert b n; decide

@[simp] theorem dirField_withSpeed (b : Byte) (n : Speed) : dirField (withSpeed b n) = dirField b := by
  revert b n; decide

@[simp] theorem spdField_withDir (b : Byte) (arg : BitVec 3) : spdField (withDir b (dirPattern arg)) = spdField b := by
  revert b arg; decide

theorem dirField_withDir_left (b : Byte) : dirField (withDir b (dirPattern 0)) = 0x0 := by
  revert b; decide

theorem dirField_withDir_right (b : Byte) : dirField (withDir b (dirPattern 1)) = 0x2 := by
  revert b; decide

/-- A legal fan control byte stays legal under a concrete level or off (R15, R18). -/
theorem withSpeed_mem_legalFanCtl {b : Byte} {n : Speed} (hb : b ∈ legalFanCtl) (hn : n = 0 ∨ concreteLevel n = true) :
    withSpeed b n ∈ legalFanCtl := by
  revert hn hb; revert b n; decide

/-- A legal fan control byte stays legal under a direction (R15, R18). -/
theorem withDir_mem_legalFanCtl {b : Byte} (arg : BitVec 3) (hb : b ∈ legalFanCtl) :
    withDir b (dirPattern arg) ∈ legalFanCtl := by
  revert hb; revert b arg; decide

end Sys2Proof.Machine
end

