-- ==== Sys2Proof/Laws/Ops.lean ====
section
/-! SUPPORT. What the shared operations can do, each said once: the twelve meanings, the sequencer's moves, one edge. -/

namespace Sys2Proof.Machine

/-! ### The meanings -/

/-- A command that answers a next state started the transmitter from the state with its register writes. -/
theorem exec_next_iff (i : Instr) (s t : State) :
    exec i s = .next t ↔
      ∃ u : State, t = u.seqStart ∧
        match i with
        | .speedOff => u = s.setFanCtl (withSpeed s.fanCtl 0)
        | .speed1 => u = (s.setLastSpd 1).setFanCtl (withSpeed s.fanCtl 1)
        | .speed2 => u = (s.setLastSpd 2).setFanCtl (withSpeed s.fanCtl 2)
        | .speed3 => u = (s.setLastSpd 3).setFanCtl (withSpeed s.fanCtl 3)
        | .speed4 => u = (s.setLastSpd 4).setFanCtl (withSpeed s.fanCtl 4)
        | .speed5 => u = (s.setLastSpd 5).setFanCtl (withSpeed s.fanCtl 5)
        | .speed6 => u = (s.setLastSpd 6).setFanCtl (withSpeed s.fanCtl 6)
        | .speedOn => concreteLevel s.lastSpd = true ∧ u = s.setFanCtl (withSpeed s.fanCtl s.lastSpd)
        | .dirLeft => u = s.setFanCtl (withDir s.fanCtl (dirPattern 0))
        | .dirRight => u = s.setFanCtl (withDir s.fanCtl (dirPattern 1))
        | .lightOff => u = s.setLightCtl (lightByte s.cfg 0)
        | .lightOn => u = s.setLightCtl (lightByte s.cfg 1) := by
  cases i <;>
    simp only [exec, execSpeedOff, execSpeed1, execSpeed2, execSpeed3, execSpeed4, execSpeed5, execSpeed6, execSpeedOn,
      execDirLeft, execDirRight, execLightOff, execLightOn, setLevel, Host.Outcome.next.injEq]
  case speedOn =>
    split
    · simp [*, eq_comm]
    · simp [*]
  all_goals simp [eq_comm]

/-- What every command leaves alone and what its start sets, whichever command it is. -/
theorem exec_frame {i : Instr} {s t : State} (h : exec i s = .next t) :
    t.cfg = s.cfg ∧ t.fanAddr = s.fanAddr ∧ t.inputs = s.inputs ∧ t.past = s.past ∧ t.busy = true ∧ t.tx = .low ∧
      t.rep = 0 ∧ t.slot = 0 ∧ t.half = false ∧ t.cnt = tShort ∧ t.trace = s.trace ++ [⟨.low, tShort⟩] := by
  obtain ⟨u, rfl, hu⟩ := (exec_next_iff i s t).1 h
  cases i <;> simp only at hu
  case speedOn => obtain ⟨-, rfl⟩ := hu; simp
  all_goals subst hu; simp

/-- A command never faults. -/
theorem exec_ne_fault (i : Instr) (s : State) (r : Fault) : exec i s ≠ .fault r := nomatch r

/-- The host's drive plays no part in a command. -/
theorem exec_setInputs (i : Instr) (s : State) (ps : List PortIn) :
    exec i { s with inputs := ps } =
      match exec i s with
      | .next t => .next { t with inputs := ps }
      | .fault r => .fault r
      | .refused r => .refused r := by
  cases i <;> try rfl
  simp only [exec, execSpeedOn]
  split <;> rfl

/-! ### The sequencer -/

/-- The moves of `NextSegment` (R88, R89), each with its guard. -/
theorem nextSegment_cases (s : State) :
    (s.slot.val < 25 ∧ s.half = false ∧
      s.nextSegment = (s.setPos s.rep s.slot true).loadSegment .high (highDur s.frame s.slot.val)) ∨
    (∃ k : Fin 26, s.slot.val < 25 ∧ s.half = true ∧ k.val = s.slot.val + 1 ∧
      s.nextSegment =
        (s.setPos s.rep k false).loadSegment .low (if k.val = 25 then s.cfg.tGap else lowDur s.frame k.val)) ∨
    (s.slot.val = 25 ∧ s.half = false ∧ burstBoundary s.cfg s.rep = true ∧
      s.nextSegment = (s.setPos s.rep s.slot true).loadSegment .low s.cfg.tBurst) ∨
    (s.slot.val = 25 ∧ (s.half = true ∨ burstBoundary s.cfg s.rep = false) ∧ s.rep + 1 < s.cfg.nRepeats ∧
      s.nextSegment = (s.setPos (s.rep + 1) 0 false).loadSegment .low tShort) ∨
    (s.slot.val = 25 ∧ (s.half = true ∨ burstBoundary s.cfg s.rep = false) ∧ s.cfg.nRepeats ≤ s.rep + 1 ∧
      s.nextSegment = s.goIdle) := by
  rcases Nat.lt_or_ge s.slot.val 25 with h | h
  · cases hh : s.half
    · exact .inl ⟨h, rfl, by simp [State.nextSegment, h, hh]⟩
    · refine .inr (.inl ⟨Fin.succ ⟨s.slot.val, h⟩, h, rfl, rfl, ?_⟩)
      simp [State.nextSegment, State.nextSlot, h, hh]
  · have h25 : s.slot.val = 25 := by omega
    have hn : s.nextSegment = s.nextTrailer := by simp [State.nextSegment, h25]
    by_cases hb : s.half = false ∧ burstBoundary s.cfg s.rep = true
    · exact .inr (.inr (.inl ⟨h25, hb.1, hb.2, by rw [hn, State.nextTrailer, if_pos hb]⟩))
    · have hb' : s.half = true ∨ burstBoundary s.cfg s.rep = false := by
        cases hh : s.half <;> simp_all
      have ht : s.nextTrailer = s.endRepeat := by rw [State.nextTrailer, if_neg hb]
      rcases Nat.lt_or_ge (s.rep + 1) s.cfg.nRepeats with hr | hr
      · exact .inr (.inr (.inr (.inl ⟨h25, hb', hr, by rw [hn, ht, State.endRepeat, if_pos hr]⟩)))
      · exact .inr (.inr (.inr (.inr ⟨h25, hb', hr, by rw [hn, ht, State.endRepeat, if_neg (by omega)]⟩)))

/-- What no tick of the sequencer touches: the device registers, the parameters, the host's drive. -/
theorem seqTick_frame (s : State) :
    s.seqTick.cfg = s.cfg ∧ s.seqTick.fanAddr = s.fanAddr ∧ s.seqTick.fanCtl = s.fanCtl ∧
      s.seqTick.lightCtl = s.lightCtl ∧ s.seqTick.lastSpd = s.lastSpd ∧ s.seqTick.inputs = s.inputs ∧
      s.seqTick.past = s.past := by
  unfold State.seqTick
  split
  · simp
  · rcases nextSegment_cases s with ⟨-, -, h⟩ | ⟨k, -, -, -, h⟩ | ⟨-, -, -, h⟩ | ⟨-, -, -, h⟩ | ⟨-, -, -, h⟩ <;> simp [h]

/-! ### One edge -/

theorem step_configIllFormed {s : State} (h : s.cfg.wf = false) : step s = .refused .configIllFormed := by
  simp [step, tickEdge, h]

theorem step_reset {s : State} (hw : s.cfg.wf = true) (hr : s.pins.rst = true) : step s = .next s.advancePins.resetEdge := by
  simp [step, tickEdge, blockEdge, hw, hr]

theorem step_busy {s : State} (hw : s.cfg.wf = true) (hr : s.pins.rst = false) (hb : s.busy = true) :
    step s = .next s.advancePins.seqTick := by
  simp [step, tickEdge, blockEdge, hw, hr, hb]

theorem accepts_iff (s : State) : s.accepts = true ↔ s.pins.rst = false ∧ s.pins.cmdValid = true ∧ s.busy = false := by
  simp [State.accepts, and_assoc]

theorem step_accept {s : State} (hw : s.cfg.wf = true) (ha : s.accepts = true) :
    step s = executeWord s.pins.cmdWord s.advancePins := by
  obtain ⟨hr, hv, hb⟩ := (accepts_iff s).1 ha
  simp [step, tickEdge, blockEdge, hw, hr, hb, hv]

theorem step_idle {s : State} (hw : s.cfg.wf = true) (hr : s.pins.rst = false) (hb : s.busy = false)
    (hv : s.pins.cmdValid = false) : step s = .next s.advancePins := by
  simp [step, tickEdge, blockEdge, hw, hr, hb, hv]

/-- Everything a step can do when it answers a next state (R90). -/
theorem step_cases {s t : State} (h : step s = .next t) :
    s.cfg.wf = true ∧
      ((s.pins.rst = true ∧ t = s.advancePins.resetEdge) ∨
       (s.pins.rst = false ∧ s.busy = true ∧ t = s.advancePins.seqTick) ∨
       (s.accepts = true ∧ ∃ i, decode s.pins.cmdWord = .ok i ∧ exec i s.advancePins = .next t) ∨
       (s.accepts = true ∧ (∃ r, decode s.pins.cmdWord = .error r) ∧ t = s.advancePins) ∨
       (s.pins.rst = false ∧ s.busy = false ∧ s.pins.cmdValid = false ∧ t = s.advancePins)) := by
  cases hw : s.cfg.wf
  · simp [step_configIllFormed hw] at h
  refine ⟨rfl, ?_⟩
  cases hr : s.pins.rst
  · cases hb : s.busy
    · cases hv : s.pins.cmdValid
      · rw [step_idle hw hr hb hv] at h
        simp_all
      · have ha : s.accepts = true := (accepts_iff s).2 ⟨hr, hv, hb⟩
        rw [step_accept hw ha, executeWord] at h
        cases hd : decode s.pins.cmdWord with
        | ok i => rw [hd] at h; exact .inr (.inr (.inl ⟨ha, i, rfl, h⟩))
        | error r => rw [hd] at h; exact .inr (.inr (.inr (.inl ⟨ha, ⟨r, rfl⟩, by simpa using h.symm⟩)))
    · rw [step_busy hw hr hb] at h
      simp_all
  · rw [step_reset hw hr] at h
    simp_all

/-! ### Runs -/

theorem ticks_succ_of_step {s t : State} (h : step s = .next t) (n : Nat) : ticks (n + 1) s = ticks n t := by
  simp [ticks, h]

/-- A run of `m + n` edges is a run of `m` and then a run of `n`. -/
theorem ticks_add (m n : Nat) (s : State) :
    ticks (m + n) s =
      match ticks m s with
      | .next t => ticks n t
      | .fault r => .fault r
      | .refused r => .refused r := by
  induction m generalizing s with
  | zero => simp [ticks]
  | succ m ih =>
    rw [Nat.succ_add]
    simp only [ticks]
    cases step s with
    | next t => exact ih t
    | fault r => rfl
    | refused r => rfl

theorem ticks_add_of_next {m : Nat} {s t : State} (h : ticks m s = .next t) (n : Nat) : ticks (m + n) s = ticks n t := by
  rw [ticks_add, h]

/-- The last edge of a run. -/
theorem ticks_succ_next {n : Nat} {s t : State} (h : ticks (n + 1) s = .next t) :
    ∃ u, ticks n s = .next u ∧ step u = .next t := by
  rw [ticks_add] at h
  cases hn : ticks n s with
  | next u =>
    rw [hn] at h
    refine ⟨u, rfl, ?_⟩
    simp only [ticks] at h
    cases hs : step u with
    | next v => rw [hs] at h; simpa using h
    | fault r => rw [hs] at h; simp at h
    | refused r => rw [hs] at h; simp at h
  | fault r => rw [hn] at h; simp at h
  | refused r => rw [hn] at h; simp at h

/-- A run may drop the premise about the host edge by edge. -/
theorem noReset_zero (s : State) : s.noReset 0 := by simp [State.noReset]

theorem noReset_succ {s : State} {n : Nat} (h : s.noReset (n + 1)) :
    s.pins.rst = false ∧ ∀ t : State, t.inputs = s.inputs.tail → t.noReset n := by
  unfold State.noReset at *
  cases hi : s.inputs with
  | nil => simp [State.pins, hi, undriven]; intro t ht; simp [ht]
  | cons p rest =>
    rw [hi] at h
    refine ⟨by simpa [State.pins, hi] using h p (by simp), ?_⟩
    intro t ht q hq
    exact h q (by simp [ht] at hq; simp [hq])

theorem noReset_of_le {s : State} {m n : Nat} (h : s.noReset n) (hm : m ≤ n) : s.noReset m :=
  fun p hp => h p ((List.take_prefix_take_left hm : s.inputs.take m <+: s.inputs.take n).subset hp)

theorem noReset_add {s t : State} {m n : Nat} (h : s.noReset (m + n)) (ht : t.inputs = s.inputs.drop m) :
    s.noReset m ∧ t.noReset n := by
  unfold State.noReset at *
  constructor
  · intro p hp
    exact h p ((List.take_prefix_take_left (by omega) : s.inputs.take m <+: s.inputs.take (m + n)).subset hp)
  · intro p hp
    have he : (s.inputs.drop m).take n = (s.inputs.take (m + n)).drop m := by rw [List.drop_take]; simp
    rw [ht, he] at hp
    exact h p (List.mem_of_mem_drop hp)

end Sys2Proof.Machine
end

