-- ==== Sys2Proof/Laws/PerInstr.lean ====
section
/-! SUPPORT. A law of every command as syntax: it is well formed and its word has `op`, a zero `z` bit and `arg` in the
places of format CW (R48, R53 to R55). -/

namespace Sys2Proof.Laws.EncodeFields

/-- The fields of a command's word. -/
def Statement (i : Instr) : Prop :=
  i.wf = true ∧ opField (encode i) = i.op ∧ zField (encode i) = 0 ∧ argField (encode i) = i.arg

theorem speedOff : Statement .speedOff := by unfold Statement; decide
theorem speed1 : Statement .speed1 := by unfold Statement; decide
theorem speed2 : Statement .speed2 := by unfold Statement; decide
theorem speed3 : Statement .speed3 := by unfold Statement; decide
theorem speed4 : Statement .speed4 := by unfold Statement; decide
theorem speed5 : Statement .speed5 := by unfold Statement; decide
theorem speed6 : Statement .speed6 := by unfold Statement; decide
theorem speedOn : Statement .speedOn := by unfold Statement; decide
theorem dirLeft : Statement .dirLeft := by unfold Statement; decide
theorem dirRight : Statement .dirRight := by unfold Statement; decide
theorem lightOff : Statement .lightOff := by unfold Statement; decide
theorem lightOn : Statement .lightOn := by unfold Statement; decide

end Sys2Proof.Laws.EncodeFields
end

