-- ==== Sys2Proof/Laws/Transaction.lean ====
section
/-! SUPPORT. The transaction level, the resumed level and the words a run accepts: how they go along appended sequences. -/

namespace Sys2Proof.Machine

theorem transact_of_exec {i : Instr} {s t : State} (h : exec i s = .next t) :
    transact i s = .next (t.transmitted s.trace) := by
  rw [transact, h]

/-- Everything an atomic step can do when it answers a next state. -/
theorem transact_cases {i : Instr} {s u : State} (h : transact i s = .next u) :
    ∃ t, exec i s = .next t ∧ u = t.transmitted s.trace := by
  unfold transact at h
  cases he : exec i s with
  | next t => rw [he] at h; exact ⟨t, rfl, by injection h with h; exact h.symm⟩
  | fault r => rw [he] at h; simp at h
  | refused r => rw [he] at h; simp at h

theorem transactAll_append (xs ys : List Instr) (s : State) :
    transactAll (xs ++ ys) s =
      match transactAll xs s with
      | .next t => transactAll ys t
      | .fault r => .fault r
      | .refused r => .refused r := by
  induction xs generalizing s with
  | nil => rfl
  | cons x xs ih => simp only [List.cons_append, transactAll]; split <;> simp [*]

@[simp] theorem resumeLevel_nil (n : Speed) : resumeLevel [] n = n := rfl

@[simp] theorem resumeLevel_cons (i : Instr) (is : List Instr) (n : Speed) :
    resumeLevel (i :: is) n = resumeLevel is (rememberedLevel i n) := rfl

@[simp] theorem resumeLevel_append (is js : List Instr) (n : Speed) :
    resumeLevel (is ++ js) n = resumeLevel js (resumeLevel is n) := List.foldl_append

/-- A remembered level stays a concrete one (R18). -/
theorem concreteLevel_rememberedLevel (i : Instr) {n : Speed} (h : concreteLevel n = true) :
    concreteLevel (rememberedLevel i n) = true := by
  cases i <;> first | exact h | rfl

/-- A command that does not select a level leaves the remembered one. -/
theorem rememberedLevel_of_nonLevel {i : Instr} (h : i ∈ nonLevelCommands) (n : Speed) : rememberedLevel i n = n := by
  cases i <;> first | rfl | exact absurd h (by decide)

theorem transactWords_append (xs ys : List Byte) (s : State) :
    transactWords (xs ++ ys) s =
      match transactWords xs s with
      | .next t => transactWords ys t
      | .fault r => .fault r
      | .refused r => .refused r := by
  induction xs generalizing s with
  | nil => rfl
  | cons x xs ih => simp only [List.cons_append, transactWords]; split <;> simp [*]

theorem acceptedWords_succ {s t : State} (h : step s = .next t) (n : Nat) :
    acceptedWords (n + 1) s = (if s.accepts then [s.pins.cmdWord] else []) ++ acceptedWords n t := by
  simp only [acceptedWords, h]

theorem acceptedWords_add {m : Nat} {s t : State} (h : ticks m s = .next t) (n : Nat) :
    acceptedWords (m + n) s = acceptedWords m s ++ acceptedWords n t := by
  induction m generalizing s with
  | zero => simp [ticks] at h; subst h; simp [acceptedWords]
  | succ m ih =>
    simp only [ticks] at h
    cases hs : step s with
    | next u =>
      rw [hs] at h
      rw [Nat.succ_add, acceptedWords_succ hs, acceptedWords_succ hs, ih h, List.append_assoc]
    | fault r => rw [hs] at h; simp at h
    | refused r => rw [hs] at h; simp at h

/-- A word is legal exactly when it decodes. -/
theorem legalWord_iff (w : Byte) : legalWord w = true ↔ ∃ i, decode w = .ok i := by
  unfold legalWord
  cases decode w <;> simp

end Sys2Proof.Machine
end

