-- ==== Sys2Proof/Laws/Waveform.lean ====
section
/-! SUPPORT. The segment lists of the transaction level: lengths and samples of appended lists, the symbols, the positions of
a repeat. -/

namespace Sys2Proof.Machine

@[simp] theorem totalDur_nil : totalDur [] = 0 := rfl

@[simp] theorem totalDur_cons (g : Segment) (w : List Segment) : totalDur (g :: w) = g.dur + totalDur w := by
  simp [totalDur]

@[simp] theorem totalDur_append (v w : List Segment) : totalDur (v ++ w) = totalDur v + totalDur w := by
  simp [totalDur]

@[simp] theorem samples_nil : samples [] = [] := rfl

@[simp] theorem samples_cons (g : Segment) (w : List Segment) :
    samples (g :: w) = List.replicate g.dur g.level ++ samples w := by
  simp [samples]

@[simp] theorem samples_append (v w : List Segment) : samples (v ++ w) = samples v ++ samples w := by
  simp [samples]

@[simp] theorem length_samples (w : List Segment) : (samples w).length = totalDur w := by
  induction w with
  | nil => rfl
  | cons g w ih => simp [ih]

/-- The level at a tick inside segment `k` is that segment's. -/
theorem samples_getElem? {w : List Segment} {k : Nat} {g : Segment} (hk : w[k]? = some g) {j : Nat}
    (h₁ : totalDur (w.take k) ≤ j) (h₂ : j < totalDur (w.take k) + g.dur) : (samples w)[j]? = some g.level := by
  induction w generalizing k j with
  | nil => simp at hk
  | cons a w ih =>
    cases k with
    | zero =>
      have : a = g := by simpa using hk
      subst this
      simp at h₂
      simp [List.getElem?_append, h₂]
    | succ k =>
      simp at hk h₁ h₂
      rw [samples_cons, List.getElem?_append_right (by simp; omega)]
      simp only [List.length_replicate]
      exact ih hk (by omega) (by omega)

theorem dataSym_eq (b : Bool) :
    dataSym b = [⟨.low, if b then tShort else tLong⟩, ⟨.high, tSlot - if b then tShort else tLong⟩] := by
  cases b <;> rfl

/-- The two segments of slot `i`, as the sequencer times them (R87), are those of its symbol. -/
theorem slot_segments (f : Frame) (i : Nat) :
    [Segment.mk .low (lowDur f i), Segment.mk .high (highDur f i)] =
      if i = 0 then startSym else dataSym (frameBit f i) := by
  by_cases h : i = 0
  · subst h; rfl
  · simp [h, lowDur, highDur, slotSym, dataSym_eq]

@[simp] theorem lowDur_zero (f : Frame) : lowDur f 0 = tShort := rfl

theorem lowDur_cases (f : Frame) (i : Nat) : lowDur f i = tShort ∨ lowDur f i = tLong := by
  unfold lowDur; split <;> simp

theorem lowDur_pos (f : Frame) (i : Nat) : 1 ≤ lowDur f i := by
  rcases lowDur_cases f i with h | h <;> simp [h, tShort, tLong]

theorem highDur_pos (f : Frame) (i : Nat) : 1 ≤ highDur f i := by
  rcases lowDur_cases f i with h | h <;> simp [highDur, h, tShort, tLong, tSlot]

theorem lowDur_le (f : Frame) (i : Nat) : lowDur f i ≤ tLong := by
  rcases lowDur_cases f i with h | h <;> simp [h, tShort, tLong]

theorem highDur_le (f : Frame) (i : Nat) : highDur f i ≤ tLong := by
  rcases lowDur_cases f i with h | h <;> simp [highDur, h, tShort, tLong, tSlot]

theorem burstBoundary_iff (c : Config) (r : Nat) :
    burstBoundary c r = true ↔ (r + 1) % c.burstLen = 0 ∧ r + 1 < c.nRepeats ∧ 0 < c.tBurst := by
  simp [burstBoundary, and_assoc]

theorem wf_iff (c : Config) :
    c.wf = true ↔ c.lightOn ≠ 0x00 ∧ 1 ≤ c.nRepeats ∧ 1 ≤ c.burstLen ∧ 1 ≤ c.tGap := by
  simp [Config.wf, and_assoc]

/-- The segments of the slots before slot `n` of a repeat, `n` in 1 to 25: the start symbol and `n - 1` data symbols. -/
theorem body_prefix_succ (f : Frame) (n : Nat) :
    startSym ++ dataSyms f (n + 1) =
      startSym ++ dataSyms f n ++ [⟨.low, lowDur f (n + 1)⟩, ⟨.high, highDur f (n + 1)⟩] := by
  rw [slot_segments]; simp [dataSyms]

theorem dataSyms_length (f : Frame) (n : Nat) : (dataSyms f n).length = 2 * n := by
  induction n with
  | zero => rfl
  | succ n ih => simp only [dataSyms, List.length_append, ih, dataSym_eq, List.length_cons, List.length_nil]; omega

theorem dataSyms_totalDur (f : Frame) (n : Nat) : totalDur (dataSyms f n) = 1500 * n := by
  induction n with
  | zero => rfl
  | succ n ih =>
    rw [dataSyms, totalDur_append, ih]
    cases frameBit f (n + 1) <;> simp [dataSym, oneSym, zeroSym, tShort, tLong] <;> omega

@[simp] theorem timeAt_append (l : Level) (v w : List Segment) : timeAt l (v ++ w) = timeAt l v + timeAt l w := by
  simp [timeAt]

theorem merge_cons (g : Segment) (w : List Segment) :
    merge (g :: w) =
      match merge w with
      | [] => [g]
      | h :: tail => if g.level = h.level then ⟨g.level, g.dur + h.dur⟩ :: tail else g :: h :: tail := rfl

/-- Merging keeps the level a list begins with. -/
theorem merge_head_level (w : List Segment) : (merge w).head?.map (·.level) = w.head?.map (·.level) := by
  cases w with
  | nil => rfl
  | cons g w => rw [merge_cons]; split <;> (try split) <;> simp

theorem totalDur_merge (w : List Segment) : totalDur (merge w) = totalDur w := by
  induction w with
  | nil => rfl
  | cons g w ih =>
    rw [merge_cons, totalDur_cons, ← ih]
    cases merge w with
    | nil => simp
    | cons h tail => by_cases hl : g.level = h.level <;> simp [hl, Nat.add_assoc]

end Sys2Proof.Machine
end

