-- ==== Sys2Proof/Laws/Transmission.lean ====
section
/-! SUPPORT. The sequencer seen segment by segment: what a run of ticks through a list of segments does (`Plays`), how such
runs compose, and the run through a whole waveform. -/

namespace Sys2Proof.Machine

/-- `n` ticks of a running sequencer, inputs left out. -/
def seqTicks : Nat → State → State
  | 0, s => s
  | n + 1, s => seqTicks n s.seqTick

theorem seqTicks_add (m n : Nat) (s : State) : seqTicks (m + n) s = seqTicks n (seqTicks m s) := by
  induction m generalizing s with
  | zero => simp [seqTicks]
  | succ m ih => rw [Nat.succ_add]; exact ih s.seqTick

theorem seqTicks_frame (n : Nat) (s : State) :
    (seqTicks n s).cfg = s.cfg ∧ (seqTicks n s).inputs = s.inputs ∧ sameDevice s (seqTicks n s) := by
  induction n generalizing s with
  | zero => simp [seqTicks, sameDevice]
  | succ n ih =>
    obtain ⟨h₁, h₂, h₃, h₄, h₅, h₆, -⟩ := seqTick_frame s
    have := ih s.seqTick
    simp only [sameDevice, seqTicks] at this ⊢
    rw [h₁, h₂, h₃, h₄, h₅, h₆] at this
    exact this

/-- The sequencer does not look at what the host drives. -/
theorem seqTick_setInputs (s : State) (ps : List PortIn) :
    ({ s with inputs := ps } : State).seqTick = { s.seqTick with inputs := ps } := by
  unfold State.seqTick State.nextSegment State.nextSlot State.nextTrailer State.endRepeat
  simp only
  repeat' split
  all_goals rfl

theorem seqTicks_setInputs (n : Nat) (s : State) (ps : List PortIn) :
    seqTicks n { s with inputs := ps } = { seqTicks n s with inputs := ps } := by
  induction n generalizing s with
  | zero => rfl
  | succ n ih => simp only [seqTicks, seqTick_setInputs]; exact ih _

/-- While the sequencer runs and `rst` stays 0, a run of the block is a run of the sequencer. -/
theorem ticks_eq_seqTicks {n : Nat} {s : State} (hw : s.cfg.wf = true) (hr : s.noReset n)
    (hb : ∀ j, j < n → (seqTicks j s).busy = true) :
    ticks n s = .next { seqTicks n s with inputs := s.inputs.drop n } := by
  induction n generalizing s with
  | zero => simp [ticks, seqTicks]
  | succ n ih =>
    obtain ⟨hp, ht⟩ := noReset_succ hr
    rw [ticks_succ_of_step (step_busy hw hp (hb 0 (by omega)))]
    have hs : s.advancePins.seqTick = { s.seqTick with inputs := s.inputs.tail } := seqTick_setInputs s _
    rw [hs, ih]
    · simp [seqTicks_setInputs, seqTicks]
    · simp [(seqTick_frame s).1, hw]
    · exact ht _ rfl
    · intro j hj
      rw [seqTicks_setInputs]
      exact hb (j + 1) (by omega)

/-- The ticks left in the segment play no part in the move to the next one. -/
theorem nextSegment_setCnt (s : State) (c : Nat) : ({ s with cnt := c } : State).nextSegment = s.nextSegment := by
  unfold State.nextSegment State.nextSlot State.nextTrailer State.endRepeat
  simp only
  repeat' split
  all_goals rfl

theorem nextSegment_setInputs (s : State) (ps : List PortIn) :
    ({ s with inputs := ps } : State).nextSegment = { s.nextSegment with inputs := ps } := by
  unfold State.nextSegment State.nextSlot State.nextTrailer State.endRepeat
  simp only
  repeat' split
  all_goals rfl

/-- Inside a segment only the counter moves. -/
theorem seqTicks_inside {s : State} {j : Nat} (h : j < s.cnt) : seqTicks j s = { s with cnt := s.cnt - j } := by
  induction j generalizing s with
  | zero => rfl
  | succ j ih =>
    have h1 : s.seqTick = { s with cnt := s.cnt - 1 } := by simp [State.seqTick, show s.cnt > 1 by omega]
    rw [seqTicks, h1, ih (by simp; omega)]
    simp [Nat.sub_sub, Nat.add_comm]

/-- At the end of a segment the sequencer moves to the next one. -/
theorem seqTicks_segment {s : State} (h : 1 ≤ s.cnt) : seqTicks s.cnt s = s.nextSegment := by
  obtain ⟨n, hn⟩ : ∃ n, s.cnt = n + 1 := ⟨s.cnt - 1, by omega⟩
  have h1 := seqTicks_add n 1 s
  rw [seqTicks_inside (show n < s.cnt by omega)] at h1
  rw [hn, h1]
  simp [seqTicks, State.seqTick, hn, nextSegment_setCnt]

/-- From `s`, which has just loaded the first segment of `w`, the sequencer plays the segments of `w` and arrives at `t`. -/
def Plays : List Segment → State → State → Prop
  | [], s, t => s = t
  | g :: w, s, t => s.busy = true ∧ s.tx = g.level ∧ s.cnt = g.dur ∧ 1 ≤ g.dur ∧ Plays w s.nextSegment t

theorem Plays.append {v w : List Segment} {s t u : State} (h₁ : Plays v s t) (h₂ : Plays w t u) :
    Plays (v ++ w) s u := by
  induction v generalizing s with
  | nil => cases h₁; exact h₂
  | cons g v ih =>
    obtain ⟨hb, hl, hc, hd, hp⟩ := h₁
    exact ⟨hb, hl, hc, hd, ih hp⟩

/-- What playing a list of segments means tick by tick: busy throughout, each segment's level for its length, and the end
state after the total time. -/
theorem Plays.run {w : List Segment} {s t : State} (h : Plays w s t) :
    seqTicks (totalDur w) s = t ∧
      ∀ j, j < totalDur w → (seqTicks j s).busy = true ∧ (samples w)[j]? = some (seqTicks j s).tx := by
  induction w generalizing s with
  | nil => exact ⟨h, fun j hj => by simp at hj⟩
  | cons g w ih =>
    obtain ⟨hb, hl, hc, hd, hp⟩ := h
    obtain ⟨hend, hin⟩ := ih hp
    have hseg : seqTicks g.dur s = s.nextSegment := by rw [← hc]; exact seqTicks_segment (by omega)
    refine ⟨by rw [totalDur_cons, seqTicks_add, hseg, hend], fun j hj => ?_⟩
    rcases Nat.lt_or_ge j g.dur with hlt | hge
    · rw [seqTicks_inside (by omega)]
      simp [hb, hl, List.getElem?_append, hlt]
    · obtain ⟨k, rfl⟩ : ∃ k, j = g.dur + k := ⟨j - g.dur, by omega⟩
      rw [seqTicks_add, hseg]
      have := hin k (by simp at hj; omega)
      refine ⟨this.1, ?_⟩
      rw [samples_cons, List.getElem?_append_right (by simp), List.length_replicate, Nat.add_sub_cancel_left]
      exact this.2

/-- `s` put at the low part of slot `k` of repeat `r` (slot 25: at the gap), with `tr` sent before it. -/
def State.atSlot (s : State) (r : Nat) (k : Fin 26) (tr : List Segment) : State :=
  { s with
    busy := true, tx := .low, rep := r, slot := k, half := false,
    cnt := if k.val = 25 then s.cfg.tGap else lowDur s.frame k.val,
    trace := tr ++ [⟨.low, if k.val = 25 then s.cfg.tGap else lowDur s.frame k.val⟩] }

/-- `s` idle with `tr` sent. -/
def State.idleWith (s : State) (tr : List Segment) : State := { s.goIdle with trace := tr }

/-- One symbol: from the low part of slot `k` to that of slot `k + 1`. -/
theorem plays_symbol (s : State) (r : Nat) (k k' : Fin 26) (tr : List Segment) (hk : k'.val = k.val + 1) :
    Plays [⟨.low, lowDur s.frame k.val⟩, ⟨.high, highDur s.frame k.val⟩] (s.atSlot r k tr)
      (s.atSlot r k' (tr ++ [⟨.low, lowDur s.frame k.val⟩, ⟨.high, highDur s.frame k.val⟩])) := by
  have hk25 : k.val < 25 := by omega
  have hne : k.val ≠ 25 := by omega
  have h1 : (s.atSlot r k tr).nextSegment =
      ((s.atSlot r k tr).setPos r k true).loadSegment .high (highDur s.frame k.val) := by
    simp [State.nextSegment, State.atSlot, hk25]; rfl
  refine ⟨rfl, rfl, by simp [State.atSlot, hne], lowDur_pos _ _, ?_⟩
  rw [h1]
  refine ⟨rfl, rfl, rfl, highDur_pos _ _, ?_⟩
  have h2 : ∀ u : State, u.slot = k → u.half = true → u.nextSegment =
      (u.setPos u.rep k' false).loadSegment .low (if k'.val = 25 then u.cfg.tGap else lowDur u.frame k'.val) := by
    intro u hs hh
    have : Fin.succ ⟨k.val, hk25⟩ = k' := Fin.ext (by simp [hk])
    simp [State.nextSegment, State.nextSlot, hs, hh, hk25, this, hk]
  show _ = _
  rw [h2 _ (by rfl) (by rfl)]
  simp [State.atSlot, State.setPos, State.loadSegment, State.frame, hne]

/-- The body up to slot `n`. -/
theorem plays_body (s : State) (r : Nat) (tr : List Segment) :
    ∀ (n : Nat) (k : Fin 26), k.val = n + 1 →
      Plays (startSym ++ dataSyms s.frame n) (s.atSlot r 0 tr) (s.atSlot r k (tr ++ (startSym ++ dataSyms s.frame n))) := by
  intro n
  induction n with
  | zero =>
    intro k hk
    have := plays_symbol s r 0 k tr (by simpa using hk)
    rw [slot_segments] at this
    simpa [dataSyms] using this
  | succ n ih =>
    intro k hk
    have h1 := ih ⟨n + 1, by omega⟩ rfl
    have h2 := plays_symbol s r ⟨n + 1, by omega⟩ k (tr ++ (startSym ++ dataSyms s.frame n)) hk
    have := h1.append h2
    rw [body_prefix_succ]
    simpa using this

/-- The trailer of repeat `r`: gap, burst pause at a boundary, then the next repeat or the idle line. -/
theorem plays_trailer (s : State) (hg : 1 ≤ s.cfg.tGap) (r : Nat) (tr : List Segment) :
    Plays (gap s.cfg ++ burstPause s.cfg r) (s.atSlot r 25 tr)
      (if r + 1 < s.cfg.nRepeats then s.atSlot (r + 1) 0 (tr ++ (gap s.cfg ++ burstPause s.cfg r))
       else s.idleWith (tr ++ (gap s.cfg ++ burstPause s.cfg r))) := by
  refine ⟨rfl, rfl, by simp [State.atSlot], hg, ?_⟩
  have hend : ∀ u : State, u.slot = 25 → (u.half = true ∨ burstBoundary u.cfg u.rep = false) → u.nextSegment = u.endRepeat := by
    intro u hs hb
    have : ¬ (u.half = false ∧ burstBoundary u.cfg u.rep = true) := by rcases hb with h | h <;> simp [h]
    simp [State.nextSegment, State.nextTrailer, hs, this]
  cases hb : burstBoundary s.cfg r
  · simp only [burstPause, hb, Bool.false_eq_true, if_false]
    show _ = _
    rw [hend _ (by rfl) (.inr hb)]
    unfold State.endRepeat
    show (if r + 1 < s.cfg.nRepeats then _ else _) = _
    split <;> simp [State.atSlot, State.idleWith, State.setPos, State.loadSegment, State.goIdle, gap, State.frame]
  · have h1 : (s.atSlot r 25 tr).nextSegment =
        ((s.atSlot r 25 tr).setPos r 25 true).loadSegment .low s.cfg.tBurst := by
      have : burstBoundary (s.atSlot r 25 tr).cfg (s.atSlot r 25 tr).rep = true := hb
      simp [State.nextSegment, State.nextTrailer, State.atSlot, hb]
    simp only [burstPause, hb, if_true]
    rw [h1]
    refine ⟨rfl, rfl, rfl, ((burstBoundary_iff _ _).1 hb).2.2, ?_⟩
    show _ = _
    rw [hend _ (by rfl) (.inl rfl)]
    unfold State.endRepeat
    show (if r + 1 < s.cfg.nRepeats then _ else _) = _
    split <;> simp [State.atSlot, State.idleWith, State.setPos, State.loadSegment, State.goIdle, gap, State.frame]

/-- One repeat. -/
theorem plays_repeat (s : State) (hg : 1 ≤ s.cfg.tGap) (r : Nat) (tr : List Segment) :
    Plays (repeatSegments s.cfg s.frame r) (s.atSlot r 0 tr)
      (if r + 1 < s.cfg.nRepeats then s.atSlot (r + 1) 0 (tr ++ repeatSegments s.cfg s.frame r)
       else s.idleWith (tr ++ repeatSegments s.cfg s.frame r)) := by
  have h := (plays_body s r tr 24 25 rfl).append (plays_trailer s hg r (tr ++ (startSym ++ dataSyms s.frame 24)))
  simpa [repeatSegments, repeatBody, frameBits] using h

/-- The repeats before repeat `n`. -/
theorem plays_repeats (s : State) (hg : 1 ≤ s.cfg.tGap) (tr : List Segment) (n : Nat) (hn : n < s.cfg.nRepeats) :
    Plays (repeats s.cfg s.frame n) (s.atSlot 0 0 tr) (s.atSlot n 0 (tr ++ repeats s.cfg s.frame n)) := by
  induction n with
  | zero => simp [repeats, Plays]
  | succ n ih =>
    have h := (ih (by omega)).append (plays_repeat s hg n _)
    rw [if_pos hn] at h
    simpa [repeats] using h

/-- The whole waveform: from the first start symbol to the idle line, the waveform appended to the trace. -/
theorem plays_waveform (s : State) (hw : s.cfg.wf = true) (tr : List Segment) :
    Plays (waveform s.cfg s.frame) (s.atSlot 0 0 tr) (s.idleWith (tr ++ waveform s.cfg s.frame)) := by
  obtain ⟨-, hn, -, hg⟩ := (wf_iff _).1 hw
  obtain ⟨n, hN⟩ : ∃ n, s.cfg.nRepeats = n + 1 := ⟨s.cfg.nRepeats - 1, by omega⟩
  have h := (plays_repeats s hg tr n (by omega)).append (plays_repeat s hg n _)
  rw [if_neg (by omega)] at h
  simpa [waveform, hN, repeats] using h

/-- A started command is at the first start symbol. -/
theorem seqStart_eq_atSlot (s : State) : s.seqStart = s.atSlot 0 0 s.trace := by
  simp [State.seqStart, State.atSlot, State.setPos, State.loadSegment]

/-- A command leaves the sequencer at the first start symbol of the frame of the registers it wrote. -/
theorem exec_eq_atSlot {i : Instr} {s t : State} (h : exec i s = .next t) : t = t.atSlot 0 0 s.trace := by
  obtain ⟨-, -, -, -, hb, hx, hr, hs, hh, hc, ht⟩ := exec_frame h
  cases t
  simp_all [State.atSlot]

end Sys2Proof.Machine
end

