-- ==== Sys2Proof/Tests/Slice0.lean ====
section
/-! SUPPORT. Small tests, each expected result from spec/ (95_test_vectors.md unless another place is named), and a witness
for the hypotheses of every statement that has some. -/

namespace Sys2Proof.Tests

open Sys2Proof Sys2Proof.Machine

/-- The default block idle with the registers `(FANCTL, LIGHTCTL, LASTSPD)`, as 95_test_vectors.md writes states. -/
def dev (fanCtl lightCtl : Byte) (lastSpd : Speed) : State :=
  { State.reset with fanCtl := fanCtl, lightCtl := lightCtl, lastSpd := lastSpd }

/-- The next state, if there is one. -/
def nextState (o : Host.Outcome State Fault Refusal) : Option State :=
  match o with
  | .next t => some t
  | _ => none

/-- The device registers after an outcome. -/
def regs (o : Host.Outcome State Fault Refusal) : Option (Byte × Byte × Speed) :=
  (nextState o).map (fun t => (t.fanCtl, t.lightCtl, t.lastSpd))

/-- The sequencer after an outcome: `TX`, `BUSY`, `REP`, `SLOT`, `HALF`, `CNT`. -/
def seqRegs (o : Host.Outcome State Fault Refusal) : Option (Level × Bool × Nat × Fin 26 × Bool × Nat) :=
  (nextState o).map (fun t => (t.tx, t.busy, t.rep, t.slot, t.half, t.cnt))

/-- `s` with the word `w` offered at the next edge. -/
def offering (s : State) (w : Byte) : State := { s with inputs := [offer w] }

/-- The default block sending `F0 03 00`, at a position of the sequencer. -/
def sending (tx : Level) (rep : Nat) (slot : Fin 26) (half : Bool) (cnt : Nat) : State :=
  { dev 0x03 0x00 3 with busy := true, tx := tx, rep := rep, slot := slot, half := half, cnt := cnt }

/-- An input pin level with `rst = 1` (and a command offered, which loses). -/
def rstPin : PortIn := ⟨true, true, 0x13⟩

/-! ### Decoding: the words of 30_encoding.md R56, written out bit by bit -/

theorem test_decode_speedOff : decode 0b00010000 = .ok .speedOff := by decide
theorem test_decode_speed1 : decode 0b00010001 = .ok .speed1 := by decide
theorem test_decode_speed2 : decode 0b00010010 = .ok .speed2 := by decide
theorem test_decode_speed3 : decode 0b00010011 = .ok .speed3 := by decide
theorem test_decode_speed4 : decode 0b00010100 = .ok .speed4 := by decide
theorem test_decode_speed5 : decode 0b00010101 = .ok .speed5 := by decide
theorem test_decode_speed6 : decode 0b00010110 = .ok .speed6 := by decide
theorem test_decode_speedOn : decode 0b00010111 = .ok .speedOn := by decide
theorem test_decode_dirLeft : decode 0b00100000 = .ok .dirLeft := by decide
theorem test_decode_dirRight : decode 0b00100001 = .ok .dirRight := by decide
theorem test_decode_lightOff : decode 0b00110000 = .ok .lightOff := by decide
theorem test_decode_lightOn : decode 0b00110001 = .ok .lightOn := by decide

/-- V21 to V25, grounds from R57. -/
theorem test_decode_reserved :
    decode 0x00 = .error .op ∧ decode 0x18 = .error .z ∧ decode 0x22 = .error .arg ∧ decode 0x33 = .error .arg ∧
      decode 0x41 = .error .op ∧ decode 0xFF = .error .op ∧ decode 0x07 = .error .op := by decide

theorem test_decodeTableWord :
    decodeTableWord 8 0x21 = some .dirRight ∧ decodeTableWord 8 0x25 = none ∧ decodeTableWord 16 0x0113 = none := by decide

/-! ### Well-formedness: an ill-formed term for each check of R6 -/

theorem test_config_default_wf : Config.default.wf = true := by decide
theorem test_config_lightOn_zero_refused : { Config.default with lightOn := 0x00 }.wf = false := by decide
theorem test_config_nRepeats_zero_refused : { Config.default with nRepeats := 0 }.wf = false := by decide
theorem test_config_burstLen_zero_refused : { Config.default with burstLen := 0 }.wf = false := by decide
theorem test_config_tGap_zero_refused : { Config.default with tGap := 0 }.wf = false := by decide
theorem test_config_tBurst_zero_wf : { Config.default with tBurst := 0 }.wf = true := by decide

/-- U5: a block with such parameters makes no step. -/
theorem test_step_illFormed_config :
    nextState (step { State.reset with cfg := { Config.default with nRepeats := 0 } }) = none := by decide

/-! ### The commands, one accepting edge each -/

/-- V4, V6. -/
theorem test_speedOff :
    regs (step (offering (dev 0x00 0x00 1) 0x10)) = some (0x00, 0x00, 1) ∧
      regs (step (offering (dev 0x25 0xDF 5) 0x10)) = some (0x20, 0xDF, 5) := by decide

/-- V1. -/
theorem test_speed1 : regs (step (offering (dev 0x00 0x00 1) 0x11)) = some (0x01, 0x00, 1) := by decide

/-- V8b: the whole nibble is replaced, not ORed. -/
theorem test_speed2 : regs (step (offering (dev 0x06 0x00 6) 0x12)) = some (0x02, 0x00, 2) := by decide

/-- S2, step 1. -/
theorem test_speed3 : regs (step (offering State.reset 0x13)) = some (0x03, 0x00, 3) := by decide

/-- S3 a: the level of its instance, stored whatever was there before (R62). -/
theorem test_speed4 : regs (step (offering (dev 0x23 0xDF 3) 0x14)) = some (0x24, 0xDF, 4) := by decide

/-- V5. -/
theorem test_speed5 : regs (step (offering (dev 0x23 0xDF 3) 0x15)) = some (0x25, 0xDF, 5) := by decide

/-- V2. -/
theorem test_speed6 : regs (step (offering (dev 0x00 0x00 1) 0x16)) = some (0x06, 0x00, 6) := by decide

/-- V3, V7, V8. -/
theorem test_speedOn :
    regs (step (offering (dev 0x00 0x00 1) 0x17)) = some (0x01, 0x00, 1) ∧
      regs (step (offering (dev 0x20 0xDF 5) 0x17)) = some (0x25, 0xDF, 5) ∧
      regs (step (offering (dev 0x25 0xDF 5) 0x17)) = some (0x25, 0xDF, 5) := by decide

/-- V11, V13. -/
theorem test_dirLeft :
    regs (step (offering (dev 0x23 0x00 3) 0x20)) = some (0x03, 0x00, 3) ∧
      regs (step (offering (dev 0x00 0x00 1) 0x20)) = some (0x00, 0x00, 1) := by decide

/-- V9, V12, V14 (the whole high nibble is cleared). -/
theorem test_dirRight :
    regs (step (offering (dev 0x00 0x00 1) 0x21)) = some (0x20, 0x00, 1) ∧
      regs (step (offering (dev 0x26 0xDF 6) 0x21)) = some (0x26, 0xDF, 6) ∧
      regs (step (offering (dev 0xF3 0x00 3) 0x21)) = some (0x23, 0x00, 3) := by decide

/-- V17, V19. -/
theorem test_lightOff :
    regs (step (offering (dev 0x05 0xDF 5) 0x30)) = some (0x05, 0x00, 5) ∧
      regs (step (offering (dev 0x00 0x00 1) 0x30)) = some (0x00, 0x00, 1) := by decide

/-- V16, V18, V20 (the parameter is honoured). -/
theorem test_lightOn :
    regs (step (offering (dev 0x00 0xDF 1) 0x31)) = some (0x00, 0xDF, 1) ∧
      regs (step (offering (dev 0x05 0x00 5) 0x31)) = some (0x05, 0xDF, 5) ∧
      regs (step (offering { State.reset with cfg := { Config.default with lightOn := 0x80 } } 0x31)) =
        some (0x00, 0x80, 1) := by decide

/-- V21 to V23: a reserved word is consumed and changes nothing. -/
theorem test_reserved_word :
    nextState (step (offering State.reset 0x00)) = some State.reset ∧
      nextState (step (offering (dev 0x03 0x00 3) 0x18)) = some (dev 0x03 0x00 3) ∧
      nextState (step (offering (dev 0x03 0x00 3) 0x22)) = some (dev 0x03 0x00 3) := by decide

/-- The frames of S2: what each command of the scenario sends. -/
theorem test_scenario_frames :
    (dev 0x03 0x00 3).frame = 0xF00300 ∧ (dev 0x23 0x00 3).frame = 0xF02300 ∧ (dev 0x20 0x00 3).frame = 0xF02000 := by
  decide

/-! ### The sequencer: rows of the tick table (section 2.7), each from the row or tick before it -/

theorem test_tick_edge_1 : seqRegs (step (offering State.reset 0x13)) = some (.low, true, 0, 0, false, 500) := by decide
theorem test_tick_edge_2 : seqRegs (step (sending .low 0 0 false 500)) = some (.low, true, 0, 0, false, 499) := by decide
theorem test_tick_edge_501 : seqRegs (step (sending .low 0 0 false 1)) = some (.high, true, 0, 0, true, 1000) := by decide
theorem test_tick_edge_1501 : seqRegs (step (sending .high 0 0 true 1)) = some (.low, true, 0, 1, false, 500) := by decide
theorem test_tick_edge_7501 : seqRegs (step (sending .high 0 4 true 1)) = some (.low, true, 0, 5, false, 1000) := by decide
theorem test_tick_edge_8501 : seqRegs (step (sending .low 0 5 false 1)) = some (.high, true, 0, 5, true, 500) := by decide
theorem test_tick_edge_37501 : seqRegs (step (sending .high 0 24 true 1)) = some (.low, true, 0, 25, false, 6000) := by
  decide
theorem test_tick_edge_43501 : seqRegs (step (sending .low 0 25 false 1)) = some (.low, true, 1, 0, false, 500) := by decide
theorem test_tick_edge_304501 : seqRegs (step (sending .low 6 25 false 1)) = some (.low, true, 6, 25, true, 12000) := by
  decide
theorem test_tick_edge_316501 : seqRegs (step (sending .low 6 25 true 1)) = some (.low, true, 7, 0, false, 500) := by decide
theorem test_tick_edge_937501 : seqRegs (step (sending .low 20 25 false 1)) = some (.high, false, 0, 0, false, 0) := by
  decide

/-- H1, H6: a command offered at the edge that ends a transmission, or together with `rst`, is not accepted. -/
theorem test_offer_not_accepted :
    regs (step { sending .low 20 25 false 1 with inputs := [offer 0x31] }) = some (0x03, 0x00, 3) ∧
      regs (step { dev 0x03 0x00 3 with inputs := [rstPin] }) = some (0x00, 0x00, 1) := by decide

/-- H4: reset in the low part of slot 8 of the third repeat. -/
theorem test_reset_cuts :
    nextState (step { sending .low 2 8 false 1 with lightCtl := 0xDF, inputs := [rstPin] }) = some State.reset := by decide

/-- Program 4: a cut segment enters the run's trace with the length it was held (here 400 of 1000 ticks). -/
theorem test_reset_keeps_held_trace :
    (nextState (step { sending .low 2 8 false 601 with trace := [⟨.high, 500⟩, ⟨.low, 1000⟩], inputs := [rstPin] })).map
      (fun t => (t.trace, t.past)) = some ([], [⟨.high, 500⟩, ⟨.low, 400⟩]) := by decide

/-! ### The waveform -/

/-- S1: the literal expectation of the source's example frame. -/
theorem test_repeatBody_S1 :
    repeatBody 0xF005DF =
      [⟨.low, 500⟩, ⟨.high, 1000⟩,
       ⟨.low, 500⟩, ⟨.high, 1000⟩, ⟨.low, 500⟩, ⟨.high, 1000⟩, ⟨.low, 500⟩, ⟨.high, 1000⟩, ⟨.low, 500⟩, ⟨.high, 1000⟩,
       ⟨.low, 1000⟩, ⟨.high, 500⟩, ⟨.low, 1000⟩, ⟨.high, 500⟩, ⟨.low, 1000⟩, ⟨.high, 500⟩, ⟨.low, 1000⟩, ⟨.high, 500⟩] ++
      [⟨.low, 1000⟩, ⟨.high, 500⟩, ⟨.low, 1000⟩, ⟨.high, 500⟩, ⟨.low, 1000⟩, ⟨.high, 500⟩, ⟨.low, 1000⟩, ⟨.high, 500⟩,
       ⟨.low, 1000⟩, ⟨.high, 500⟩, ⟨.low, 500⟩, ⟨.high, 1000⟩, ⟨.low, 1000⟩, ⟨.high, 500⟩, ⟨.low, 500⟩, ⟨.high, 1000⟩] ++
      [⟨.low, 500⟩, ⟨.high, 1000⟩, ⟨.low, 500⟩, ⟨.high, 1000⟩, ⟨.low, 1000⟩, ⟨.high, 500⟩, ⟨.low, 500⟩, ⟨.high, 1000⟩,
       ⟨.low, 500⟩, ⟨.high, 1000⟩, ⟨.low, 500⟩, ⟨.high, 1000⟩, ⟨.low, 500⟩, ⟨.high, 1000⟩, ⟨.low, 500⟩, ⟨.high, 1000⟩] := by
  decide

/-- Section 2.5: ones and low time of a body. -/
theorem test_ones_and_low_time :
    ones 0xF005DF = 13 ∧ timeAt .low (repeatBody 0xF005DF) = 18000 ∧ timeAt .high (repeatBody 0xF005DF) = 19500 ∧
      ones 0xF00300 = 6 ∧ timeAt .low (repeatBody 0xF00300) = 21500 := by decide

/-- W1 to W7: `T_total`. -/
theorem test_tTotal :
    tTotal Config.default = 937500 ∧ tTotal { Config.default with nRepeats := 1 } = 43500 ∧
      tTotal { Config.default with nRepeats := 3, burstLen := 2 } = 142500 ∧
      tTotal { Config.default with nRepeats := 4, burstLen := 2 } = 186000 ∧
      tTotal { Config.default with nRepeats := 7 } = 304500 ∧ tTotal { Config.default with tBurst := 0 } = 913500 ∧
      tTotal { Config.default with nRepeats := 2, burstLen := 1, tGap := 3, tBurst := 4 } = 75010 := by decide

/-- W3: segments and merged segments. -/
theorem test_waveform_W3 :
    (waveform { Config.default with nRepeats := 3, burstLen := 2 } 0xF00300).length = 154 ∧
      (merge (waveform { Config.default with nRepeats := 3, burstLen := 2 } 0xF00300)).length = 151 := by
  set_option maxRecDepth 4000 in decide

/-- The transaction level: SPEED 3 from reset sends `F0 03 00` (S2). -/
theorem test_transact_speed3 :
    (nextState (transact .speed3 { State.reset with cfg := { Config.default with nRepeats := 1 } })).map
      (fun t => (t.fanCtl, t.busy, t.tx, t.trace)) =
        some (0x03, false, .high, repeatBody 0xF00300 ++ [⟨.low, 6000⟩]) := by decide

/-! ### Ports -/

/-- V26, V27, V28. -/
theorem test_statusRead :
    (dev 0x23 0xDF 3).statusRead = some ⟨3, true, true⟩ ∧ (dev 0x20 0x00 5).statusRead = some ⟨0, true, false⟩ ∧
      (sending .low 0 0 false 500).statusRead = none := by decide

/-- D20: the rising edge of `busy` is the command-dispatch point. -/
theorem test_commandDispatch :
    commandDispatch State.reset (sending .low 0 0 false 500) = true ∧ commandDispatch State.reset State.reset = false := by
  decide

/-- R7: 14 bits for the duration counter, 5 for the repeat counter, 5 for the slot counter. -/
theorem test_widths : Config.default.cntWidth = 14 ∧ Config.default.repWidth = 5 ∧ slotWidth = 5 := by decide

/-! ### Text (30_encoding.md R59, R60) -/

theorem test_assemble_mixed_case_comment :
    assembleLine ['s', 'p', 'e', 'e', 'd', ' ', ' ', '3', ' ', ';', 'x'] = some .speed3 := by decide
theorem test_assemble_setter_call :
    assembleLine ['s', 'e', 't', 'D', 'i', 'r', 'e', 'c', 't', 'i', 'o', 'n', '(', 'R', 'I', 'G', 'H', 'T', ')'] =
      some .dirRight := by decide
theorem test_assemble_two_lines :
    assemble [['W', 'I', 'N', 'T', 'E', 'R'], [], ['L', 'I', 'G', 'H', 'T', ' ', 'O', 'N']] = some [0x21, 0x31] := by decide
theorem test_assemble_unknown_operand : assembleLine ['D', 'I', 'R', ' ', 'O', 'N'] = none := by decide

/-! ### Fetch -/

theorem test_withFetchWord_from_reset :
    regs (step (State.reset.withFetchWord 8 0x31)) = some (0x00, 0xDF, 1) ∧
      seqRegs (step ((sending .low 2 8 false 7).withFetchWord 8 0x31)) = some (.low, true, 0, 0, false, 500) := by decide

end Sys2Proof.Tests
end

