-- ==== Sys2Proof/Tests/Witnesses.lean ====
section
/-! SUPPORT. For every statement that has hypotheses, a concrete state and operands that meet all of them together, at the
boundary of each clause's range. -/

namespace Sys2Proof.Tests

open Sys2Proof Sys2Proof.Machine

/-- The start state of the runs below: SPEED 3 offered to the block in the reset state. -/
def start : State := offering State.reset 0x13

/-- The default block sending `F0 03 00` with the trace of its first segment, after the edge that accepted SPEED 3. -/
def started : State := { sending .low 0 0 false 500 with trace := [⟨.low, 500⟩] }

theorem wit_EncodeDecodeRoundTrip : Instr.speed6.wf = true ∧ decode 0x16 = .ok .speed6 := by decide

theorem wit_EdgePriorityOrder :
    State.reset.cfg.wf = true ∧ { started with inputs := [rstPin] }.pins.rst = true ∧
      (started.pins.rst = false ∧ started.busy = true) ∧
      (start.pins.rst = false ∧ start.busy = false ∧ start.pins.cmdValid = true ∧ decode start.pins.cmdWord = .ok .speed3) ∧
      ((offering State.reset 0x07).pins.cmdValid = true ∧ decode (offering State.reset 0x07).pins.cmdWord = .error .op) ∧
      (State.reset.pins.rst = false ∧ State.reset.busy = false ∧ State.reset.pins.cmdValid = false) := by decide

theorem wit_StepRunsDecodedCommand :
    start.cfg.wf = true ∧ start.accepts = true ∧ decode start.pins.cmdWord = .ok .speed3 := by decide

theorem wit_ReservedWordHasNoEffect :
    (offering State.reset 0x18).cfg.wf = true ∧ (offering State.reset 0x18).accepts = true ∧
      decode (offering State.reset 0x18).pins.cmdWord = .error .z := by decide

theorem wit_OfferNotAcceptedHasNoEffect :
    started.busy = true ∧ (offer 0x13).rst = undriven.rst ∧ (rstPin.rst = true ∧ rstPin.rst = (PortIn.mk true false 0).rst) ∧
      (undriven.cmdValid = false ∧ (PortIn.mk false false 0xFF).cmdValid = false) := by decide

theorem wit_RunningTransmissionIgnoresHost :
    started.cfg.wf = true ∧ (∀ p ∈ [offer 0x31].take 2, p.rst = false) ∧ (∀ q ∈ ([] : List PortIn).take 2, q.rst = false) ∧
      ∀ j, j < 2 → ∃ u, ticks j { started with inputs := [offer 0x31] } = .next u ∧ u.busy = true := by
  refine ⟨by decide, by decide, by decide, fun j hj => ?_⟩
  match j, hj with
  | 0, _ => exact ⟨_, rfl, by decide⟩
  | 1, _ => exact ⟨_, rfl, by decide⟩

/-- The end position of the default block, with a legal word offered and without. -/
theorem wit_EndEdgeAcceptsNothing :
    ((offering (sending .low 20 25 false 1) 0x31).inv ∧ (offering (sending .low 20 25 false 1) 0x31).cfg.wf = true ∧
      (offering (sending .low 20 25 false 1) 0x31).busy = true ∧
      (offering (sending .low 20 25 false 1) 0x31).pins.rst = false ∧
      (offering (sending .low 20 25 false 1) 0x31).pins.cmdValid = true ∧
      (offering (sending .low 20 25 false 1) 0x31).cnt = 1 ∧ (offering (sending .low 20 25 false 1) 0x31).slot = 25 ∧
      (offering (sending .low 20 25 false 1) 0x31).rep + 1 = (offering (sending .low 20 25 false 1) 0x31).cfg.nRepeats) ∧
      (∃ t, step (offering (sending .low 20 25 false 1) 0x31) = .next t ∧ t.busy = false) ∧
      (sending .low 20 25 false 1).inv ∧ ∃ t, step (sending .low 20 25 false 1) = .next t ∧ t.busy = false :=
  ⟨by decide, ⟨_, rfl, by decide⟩, by decide, _, rfl, by decide⟩

theorem wit_SpeedLevelResult :
    (Instr.speed1, 1#3) ∈ [(Instr.speed1, 1#3), (.speed2, 2#3), (.speed3, 3#3), (.speed4, 4#3), (.speed5, 5#3), (.speed6, 6#3)] ∧
      (Instr.speed6, 6#3) ∈
        [(Instr.speed1, 1#3), (.speed2, 2#3), (.speed3, 3#3), (.speed4, 4#3), (.speed5, 5#3), (.speed6, 6#3)] := by decide

theorem wit_SpeedOnResult :
    (1 ≤ State.reset.lastSpd.toNat ∧ State.reset.lastSpd.toNat ≤ 6 ∧ State.reset.lastSpd = lastSpdReset) ∧
      (1 ≤ (dev 0x26 0 6).lastSpd.toNat ∧ (dev 0x26 0 6).lastSpd.toNat ≤ 6 ∧
        spdField (dev 0x26 0 6).fanCtl = (dev 0x26 0 6).lastSpd.zeroExtend 4) := by decide

theorem wit_LightOnResult : State.reset.cfg.wf = true := by decide

theorem wit_OnlyTheSpecsRefusals :
    { State.reset with cfg := { Config.default with tGap := 0 } }.cfg.wf = false ∧
      concreteLevel (dev 0 0 0).lastSpd = false ∧ concreteLevel (dev 0 0 7).lastSpd = false ∧
      (State.reset.cfg.wf = true ∧ concreteLevel State.reset.lastSpd = true) ∧ Instr.dirLeft ≠ .speedOn := by decide

theorem wit_CommandFrame : ∃ t, exec .speed1 State.reset = .next t := ⟨_, rfl⟩

theorem wit_EveryCommandTransmits :
    ∃ t u, exec .lightOn State.reset = .next t ∧ transact .lightOn State.reset = .next u := ⟨_, _, rfl, rfl⟩

theorem wit_ResumeLastLevel :
    (Instr.speed6, 6) ∈ levelRows ∧ ∀ x ∈ [Instr.speedOff, .dirRight, .speedOff, .lightOn], x ∈ nonLevelCommands := by decide

theorem wit_ResumeDefaultLevel : ∀ x ∈ [Instr.speedOn, .speedOff], x ∈ nonLevelCommands := by decide

/-- Commands of each family, and both ends of the range of remembered levels. -/
theorem wit_CommandSetLaws :
    (concreteLevel (dev 0x00 0x00 1).lastSpd = true ∧ concreteLevel (dev 0x20 0xDF 6).lastSpd = true) ∧
      ((Instr.speed1, 1) ∈ levelRows ∧ (Instr.speed6, 6) ∈ levelRows ∧
        ∀ x ∈ [Instr.speedOff, .dirLeft, .lightOn, .speedOn], x ∈ nonLevelCommands) ∧
      (dev 0x26 0xDF 6).deviceOk ∧
      (∃ t u, exec .speedOn (dev 0x26 0xDF 6) = .next t ∧ transact .speedOn (dev 0x26 0xDF 6) = .next u) ∧
      (∃ t u, exec .speed6 (dev 0x26 0xDF 6) = .next t ∧ transact .speed6 (dev 0x26 0xDF 6) = .next u) ∧
      (∃ t u, exec .dirRight (dev 0x26 0xDF 6) = .next t ∧ transact .dirRight (dev 0x26 0xDF 6) = .next u) ∧
      ∃ t u, exec .lightOff (dev 0x26 0xDF 6) = .next t ∧ transact .lightOff (dev 0x26 0xDF 6) = .next u :=
  ⟨by decide, by decide, by decide, ⟨_, _, rfl, rfl⟩, ⟨_, _, rfl, rfl⟩, ⟨_, _, rfl, rfl⟩, _, _, rfl, rfl⟩

theorem wit_FrameBitOrder : (1 ≤ 1 ∧ 1 ≤ 8) ∧ (1 ≤ 8 ∧ 8 ≤ 8) := by decide

theorem wit_BurstPauseRule :
    ({ Config.default with nRepeats := 7 }.wf = true ∧
      { Config.default with nRepeats := 7 }.nRepeats ≤ { Config.default with nRepeats := 7 }.burstLen) ∧
      ({ Config.default with tBurst := 0 }.wf = true ∧ { Config.default with tBurst := 0 }.tBurst = 0) := by decide

theorem wit_MergedWaveformLength : { Config.default with nRepeats := 1 }.wf = true := by decide

theorem wit_RunLengthsOfSamples : ∀ g ∈ [Segment.mk .low 1, ⟨.low, 2⟩, ⟨.high, 1⟩], 1 ≤ g.dur := by decide

theorem wit_SequencerMoves :
    ((sending .low 0 24 false 1).slot.val ≤ 24 ∧ (sending .low 0 24 false 1).half = false) ∧
      ((sending .high 0 23 true 1).slot.val ≤ 23 ∧ (sending .high 0 23 true 1).half = true ∧
        (24 : Fin 26).val = (sending .high 0 23 true 1).slot.val + 1) ∧
      ((sending .high 0 24 true 1).slot.val = 24 ∧ (sending .high 0 24 true 1).half = true) ∧
      ((sending .low 13 25 false 1).slot.val = 25 ∧ burstBoundary (sending .low 13 25 false 1).cfg 13 = true) ∧
      (burstBoundary (sending .low 20 25 false 1).cfg 20 = false) ∧
      ((sending .low 19 25 false 1).rep + 1 < (sending .low 19 25 false 1).cfg.nRepeats) ∧
      ((sending .low 20 25 false 1).cfg.nRepeats ≤ (sending .low 20 25 false 1).rep + 1) := by decide

theorem wit_SegmentHoldsItsLevel :
    (started.cfg.wf = true ∧ started.busy = true ∧ 1 ≤ started.cnt ∧ started.noReset started.cnt) ∧
      (1 ≤ (sending .low 0 0 false 1).cnt ∧ (sending .low 0 0 false 1).noReset 1) :=
  ⟨⟨by decide, by decide, by decide, fun p hp => by simp [started, sending, dev, State.reset, State.resetWith] at hp⟩,
    by decide, fun p hp => by simp [sending, dev, State.reset, State.resetWith] at hp⟩

/-- The hypotheses of LineFollowsWaveform and of TickLevelRefinesTransaction. -/
theorem wit_LineFollowsWaveform :
    start.cfg.wf = true ∧ start.accepts = true ∧ decode start.pins.cmdWord = .ok .speed3 ∧
      ∃ t, step start = .next t ∧ t.noReset (tTotal t.cfg) :=
  ⟨by decide, by decide, by decide, started, by rfl,
    fun p hp => by simp [started, sending, dev, State.reset, State.resetWith] at hp⟩

theorem wit_RunningTransmissionEnds : started.inv ∧ started.busy = true ∧ started.noReset (tTotal started.cfg) :=
  ⟨by decide, by decide, fun p hp => by simp [started, sending, dev, State.reset, State.resetWith] at hp⟩

/-- The hypotheses of CommandsTakeEffectInOrder and of StatusReadSeesFinishedCommands. -/
theorem wit_CommandsTakeEffectInOrder :
    (offering (dev 0x23 0xDF 3) 0x18).inv ∧ (offering (dev 0x23 0xDF 3) 0x18).busy = false ∧
      (offering (dev 0x23 0xDF 3) 0x18).noReset 2 ∧
      ∃ t, ticks 2 (offering (dev 0x23 0xDF 3) 0x18) = .next t ∧ t.busy = false ∧
        t.statusRead = some ⟨3, true, true⟩ :=
  ⟨by decide, by decide,
    fun p hp => by
      simp only [offering, List.take_succ_cons, List.take_nil, List.mem_singleton] at hp
      rw [hp]
      rfl,
    _, rfl, by decide, by decide⟩

theorem wit_CommandSequenceCompletes :
    { State.reset with inputs := sequenceInputs Config.default [0x13, 0x00, 0x31] }.busy = false ∧
      { State.reset with inputs := sequenceInputs Config.default [0x13, 0x00, 0x31] }.inputs =
        sequenceInputs { State.reset with inputs := sequenceInputs Config.default [0x13, 0x00, 0x31] }.cfg [0x13, 0x00, 0x31] ∧
      ({ State.reset with inputs := [] } : State).inv := ⟨rfl, rfl, by decide⟩

theorem wit_ResetEdgeLoadsResetValues :
    ({ started with inputs := [rstPin] }.cfg.wf = true ∧ { started with inputs := [rstPin] }.pins.rst = true) ∧
      (1 < { started with inputs := [rstPin, rstPin] }.inputs.length ∧
        ∀ p ∈ { started with inputs := [rstPin, rstPin] }.inputs.take 2, p.rst = true) := by decide

theorem wit_ReadyAfterReset :
    { started with inputs := [rstPin, offer 0x17] }.pins.rst = true ∧
      ∃ t, step { started with inputs := [rstPin, offer 0x17] } = .next t ∧ t.pins.rst = false ∧ t.pins.cmdValid = true ∧
        decode t.pins.cmdWord = .ok .speedOn :=
  ⟨by decide, _, rfl, by decide, by decide, by decide⟩

theorem wit_NothingSentBeforeFirstCommand :
    (∃ t, ticks 2 { State.resetWith Config.default with inputs := [offer 0x00, rstPin] } = .next t) ∧
      ∀ w ∈ acceptedWords 2 { State.resetWith Config.default with inputs := [offer 0x00, rstPin] }, legalWord w = false :=
  ⟨⟨_, rfl⟩, by decide⟩

theorem wit_ResetEdgeKeepsPastTrace :
    ({ started with inputs := [rstPin] }.inv ∧ { started with inputs := [rstPin] }.traceOk ∧
      { started with inputs := [rstPin] }.pins.rst = true ∧ { started with inputs := [rstPin] }.busy = true) ∧
      (∃ t, step { started with inputs := [rstPin] } = .next t) ∧
      ({ dev 0x23 0xDF 3 with trace := [⟨.low, 6000⟩], inputs := [rstPin] }.inv ∧
        { dev 0x23 0xDF 3 with trace := [⟨.low, 6000⟩], inputs := [rstPin] }.traceOk ∧
        { dev 0x23 0xDF 3 with trace := [⟨.low, 6000⟩], inputs := [rstPin] }.pins.rst = true ∧
        { dev 0x23 0xDF 3 with trace := [⟨.low, 6000⟩], inputs := [rstPin] }.busy = false) ∧
      ∃ t, step { dev 0x23 0xDF 3 with trace := [⟨.low, 6000⟩], inputs := [rstPin] } = .next t :=
  ⟨by decide, ⟨_, rfl⟩, by decide, _, rfl⟩

theorem wit_StatusReadResult : (dev 0x26 0xDF 6).busy = false ∧ started.busy = true := by decide

theorem wit_StatusOnReachableStates :
    ((dev 0x26 0xDF 6).inv ∧ (dev 0x26 0xDF 6).statusRead = some ⟨6, true, true⟩) ∧
      ((dev 0x00 0x00 1).inv ∧ (dev 0x00 0x00 1).statusRead = some ⟨0, false, false⟩) :=
  ⟨⟨by decide, by decide⟩, by decide, by decide⟩

theorem wit_ResetMeetsInvariant : Config.default.wf = true := by decide

/-- The hypotheses of StepKeepsInvariant, StepKeepsTraceInvariant, ReachableFrames and CountersFitTheirWidths, idle and
busy, the counter at its largest value. -/
theorem wit_StepKeepsInvariant :
    start.inv ∧ start.traceOk ∧ (∃ t, step start = .next t) ∧ started.inv ∧ started.traceOk ∧
      (sending .low 6 25 true 12000).inv :=
  ⟨by decide, by decide, ⟨_, rfl⟩, by decide, by decide, by decide⟩

theorem wit_RunningSpeedIsRemembered :
    (offering (dev 0x23 0 3) 0x20).inv ∧ spdField (dev 0x23 0 3).fanCtl ≠ 0 ∧
      spdField (dev 0x23 0 3).fanCtl = (dev 0x23 0 3).lastSpd.zeroExtend 4 ∧
      ∃ t, step (offering (dev 0x23 0 3) 0x20) = .next t ∧ spdField t.fanCtl ≠ 0 :=
  ⟨by decide, by decide, by decide, _, rfl, by decide⟩

theorem wit_AddressAndParametersConstant : ∃ t, ticks 2 start = .next t := ⟨_, rfl⟩

theorem wit_LastSpeedWriters :
    (∃ t, step (offering State.reset 0x16) = .next t) ∧
      ((offering State.reset 0x11).accepts = true ∧ (0x11 : Byte).toNat = 0x11) ∧
      (offering State.reset 0x16).accepts = true ∧
      ¬ ((offering State.reset 0x17).accepts = true ∧ 0x11 ≤ (offering State.reset 0x17).pins.cmdWord.toNat ∧
        (offering State.reset 0x17).pins.cmdWord.toNat ≤ 0x16) ∧
      { started with inputs := [rstPin] }.pins.rst = true :=
  ⟨⟨_, rfl⟩, by decide, by decide, by decide, by decide⟩

theorem wit_DeviceChangesOnlyAtAcceptance :
    (∃ t, step started = .next t) ∧ started.pins.rst = false ∧
      ¬ (started.accepts = true ∧ legalWord started.pins.cmdWord = true) := ⟨⟨_, rfl⟩, by decide, by decide⟩

end Sys2Proof.Tests
end

namespace Sys2Proof.Machine

/-! ### Steps and commands -/

theorem step_eq_exec_of_accepts {s : State} {i : Instr} (hw : s.cfg.wf = true) (ha : s.accepts = true)
    (hd : decode s.pins.cmdWord = .ok i) : step s = exec i s.advancePins := by
  rw [step_accept hw ha, executeWord, hd]

/-- Every command but `SPEED ON` with a `LASTSPD` outside 1 to 6 answers a next state. -/
theorem exec_answers {i : Instr} {s : State} (h : i ≠ .speedOn ∨ concreteLevel s.lastSpd = true) :
    ∃ t, exec i s = .next t := by
  cases i with
  | speedOn =>
    have hc : concreteLevel s.lastSpd = true := h.resolve_left (by simp)
    exact ⟨_, (exec_next_iff _ _ _).2 ⟨_, rfl, hc, rfl⟩⟩
  | _ => exact ⟨_, (exec_next_iff _ _ _).2 ⟨_, rfl, rfl⟩⟩

theorem exec_speedOn_refused {s : State} (h : concreteLevel s.lastSpd = false) :
    exec .speedOn s = .refused .lastSpdOutOfRange := by
  simp [exec, execSpeedOn, h]

/-- A consumed word answers a next state, legal or reserved (R61, R72), while `LASTSPD` holds a concrete level. -/
theorem executeWord_answers (w : Byte) {s : State} (h : concreteLevel s.lastSpd = true) :
    ∃ t, executeWord w s = .next t := by
  unfold executeWord
  cases decode w with
  | ok i => exact exec_answers (.inr h)
  | error r => exact ⟨s, rfl⟩

/-- One case for each row of the priority order of R90. -/
theorem step_answers {s : State} (hw : s.cfg.wf = true) (h : concreteLevel s.lastSpd = true) :
    ∃ t, step s = .next t := by
  cases hr : s.pins.rst with
  | true => exact ⟨_, step_reset hw hr⟩
  | false =>
    cases hb : s.busy with
    | true => exact ⟨_, step_busy hw hr hb⟩
    | false =>
      cases hv : s.pins.cmdValid with
      | true =>
        rw [step_accept hw ((accepts_iff s).2 ⟨hr, hv, hb⟩)]
        exact executeWord_answers _ h
      | false => exact ⟨_, step_idle hw hr hb hv⟩

/-- Settles O19: the two refusals by their own lemmas, completion by the cases of a command and of an edge. -/
theorem onlyTheSpecsRefusals : Obligations.OnlyTheSpecsRefusals :=
  ⟨fun _ => step_configIllFormed, fun _ => exec_speedOn_refused, fun _ _ => exec_answers, fun _ => step_answers⟩

/-! ### The length of a waveform (R85) -/

/-- The number of burst pauses after the repeats before repeat `n`: there is none after the last repeat (R81). -/
def pausesBefore (c : Config) (n : Nat) : Nat :=
  if c.tBurst = 0 then 0 else min n (c.nRepeats - 1) / c.burstLen

@[simp] theorem pausesBefore_zero (c : Config) : pausesBefore c 0 = 0 := by simp [pausesBefore]

theorem pausesBefore_nRepeats (c : Config) : pausesBefore c c.nRepeats = burstCount c := by
  simp [pausesBefore, burstCount]

/-- A repeat adds a burst pause exactly at a burst boundary. -/
theorem pausesBefore_succ (c : Config) (n : Nat) :
    pausesBefore c (n + 1) = pausesBefore c n + if burstBoundary c n = true then 1 else 0 := by
  rcases Nat.eq_zero_or_pos c.tBurst with ht | ht
  · simp [pausesBefore, burstBoundary, ht]
  · have ht0 : c.tBurst ≠ 0 := by omega
    simp only [pausesBefore, ht0, if_false, burstBoundary_iff, ht, and_true]
    rcases Nat.lt_or_ge (n + 1) c.nRepeats with hn | hn
    · rw [min_eq_left (by omega), min_eq_left (by omega), Nat.succ_div]
      simp [hn, Nat.dvd_iff_mod_eq_zero]
    · rw [min_eq_right (by omega), min_eq_right (by omega)]
      simp [show ¬ n + 1 < c.nRepeats by omega]

theorem totalDur_repeatBody (f : Frame) : totalDur (repeatBody f) = 25 * tSlot := by
  rw [repeatBody, totalDur_append, dataSyms_totalDur]
  rfl

theorem totalDur_burstPause (c : Config) (r : Nat) :
    totalDur (burstPause c r) = (if burstBoundary c r = true then 1 else 0) * c.tBurst := by
  unfold burstPause
  split <;> simp

theorem totalDur_repeatSegments (c : Config) (f : Frame) (r : Nat) :
    totalDur (repeatSegments c f r) = tRepeat c + (if burstBoundary c r = true then 1 else 0) * c.tBurst := by
  rw [repeatSegments, totalDur_append, totalDur_append, totalDur_repeatBody, totalDur_burstPause]
  simp [gap, tRepeat]

theorem totalDur_repeats (c : Config) (f : Frame) (n : Nat) :
    totalDur (repeats c f n) = n * tRepeat c + pausesBefore c n * c.tBurst := by
  induction n with
  | zero => simp [repeats]
  | succ n ih =>
    rw [repeats, totalDur_append, ih, totalDur_repeatSegments, pausesBefore_succ]
    ring

/-- `T_total` is the length of the waveform of every frame (R85). -/
theorem totalDur_waveform (c : Config) (f : Frame) : totalDur (waveform c f) = tTotal c := by
  rw [waveform, totalDur_repeats, pausesBefore_nRepeats, tTotal]

/-! ### The two levels agree (R10, R92) -/

/-- After the edge that accepts a command the sequencer plays the waveform of the new registers' frame, and arrives where
the atomic step does. -/
theorem plays_of_exec {i : Instr} {s t : State} (hw : s.cfg.wf = true) (h : exec i s = .next t) :
    Plays (waveform t.cfg t.frame) t (t.transmitted s.trace) := by
  obtain ⟨hcfg, -⟩ := exec_frame h
  have hp := plays_waveform t (hcfg ▸ hw) s.trace
  rwa [← exec_eq_atSlot h] at hp

/-- A run of the block through a list of segments it has started to play. -/
theorem Plays.ticks_eq {w : List Segment} {s t : State} (h : Plays w s t) (hw : s.cfg.wf = true)
    (hr : s.noReset (totalDur w)) :
    ticks (totalDur w) s = .next { t with inputs := s.inputs.drop (totalDur w) } := by
  obtain ⟨hend, hin⟩ := h.run
  rw [ticks_eq_seqTicks hw hr fun j hj => (hin j hj).1, hend]

/-- Settles O35: the accepted command starts the sequencer at the first segment of its waveform, the sequencer plays it to
the end, and the waveform lasts `T_total`. -/
theorem tickLevelRefinesTransaction : Obligations.TickLevelRefinesTransaction := by
  intro s t i hw ha hd hs hr
  have he : exec i s.advancePins = .next t := by rw [← step_eq_exec_of_accepts hw ha hd, hs]
  obtain ⟨hcfg, -⟩ := exec_frame he
  have hwt : t.cfg.wf = true := hcfg ▸ hw
  rw [← totalDur_waveform t.cfg t.frame] at hr ⊢
  exact ⟨_, transact_of_exec he, (plays_of_exec (s := s.advancePins) hw he).ticks_eq hwt hr⟩

/-! ### Merged lists and samples (R12, R92) -/

theorem merge_cons_congr (g : Segment) {v w : List Segment} (h : merge v = merge w) :
    merge (g :: v) = merge (g :: w) := by
  rw [merge_cons, merge_cons, h]

/-- Two segments of one level at the head of a list merge like the one segment of their joint length. -/
theorem merge_cons_cons_same (l : Level) (a b : Nat) (w : List Segment) :
    merge (⟨l, a⟩ :: ⟨l, b⟩ :: w) = merge (⟨l, a + b⟩ :: w) := by
  rw [merge_cons, merge_cons ⟨l, b⟩, merge_cons ⟨l, a + b⟩]
  cases merge w with
  | nil => simp
  | cons h tail => by_cases hl : l = h.level <;> simp [hl, Nat.add_assoc]

/-- The one-tick segments of a segment merge like the segment itself. -/
theorem merge_replicate_append (l : Level) (n : Nat) (w : List Segment) :
    merge (List.replicate (n + 1) ⟨l, 1⟩ ++ w) = merge (⟨l, n + 1⟩ :: w) := by
  induction n with
  | zero => rfl
  | succ n ih =>
    calc merge (List.replicate (n + 2) ⟨l, 1⟩ ++ w)
        = merge (⟨l, 1⟩ :: (List.replicate (n + 1) ⟨l, 1⟩ ++ w)) := rfl
      _ = merge (⟨l, 1⟩ :: ⟨l, n + 1⟩ :: w) := merge_cons_congr _ ih
      _ = merge (⟨l, n + 2⟩ :: w) := by rw [merge_cons_cons_same, Nat.add_comm 1]

/-- Settles O31, by induction on the segment list. -/
theorem runLengthsOfSamples : Obligations.RunLengthsOfSamples := by
  intro w
  induction w with
  | nil => intro _; rfl
  | cons g w ih =>
    intro hd
    obtain ⟨hg, hw⟩ := List.forall_mem_cons.1 hd
    obtain ⟨n, hn⟩ : ∃ n, g.dur = n + 1 := ⟨g.dur - 1, by omega⟩
    rw [runLengths, samples_cons, List.map_append, List.map_replicate, hn, merge_replicate_append, ← hn]
    exact merge_cons_congr g (ih hw)

/-! ### The segment at the sequencer's position -/

/-- The low part of slot `k` of a repeat, the gap for slot 25. -/
theorem segDur_low {s : State} (h : s.half = false) :
    s.segDur = if s.slot.val = 25 then s.cfg.tGap else lowDur s.frame s.slot.val := by
  have := s.slot.isLt
  by_cases hk : s.slot.val = 25
  · simp [State.segDur, h, hk]
  · simp [State.segDur, h, hk, show s.slot.val < 25 by omega]

theorem segLevel_low {s : State} (h : s.half = false) : s.segLevel = .low := by
  simp [State.segLevel, h]

theorem segDur_le_cntMax (s : State) : s.segDur ≤ s.cfg.cntMax := by
  have hlong : tLong ≤ s.cfg.cntMax := le_max_left _ _
  unfold State.segDur
  split
  · split
    · exact (highDur_le _ _).trans hlong
    · exact (lowDur_le _ _).trans hlong
  · split <;> simp [Config.cntMax]

/-! ### Widths of the counters (R7) -/

theorem lt_two_pow_bitsFor {m n : Nat} (h : m ≤ n) : m < 2 ^ bitsFor n := h.trans_lt Nat.lt_log2_self

/-- The counter never holds more than the longest segment, in an idle or a busy state of the invariant (R25). -/
theorem cnt_le_cntMax {s : State} (h : s.inv) : s.cnt ≤ s.cfg.cntMax := by
  obtain ⟨-, -, hidle, hrun⟩ := h
  cases hb : s.busy with
  | false =>
    obtain ⟨-, -, -, -, hc⟩ := hidle hb
    omega
  | true =>
    obtain ⟨-, hc, -⟩ := hrun hb
    exact hc.trans (segDur_le_cntMax s)

theorem rep_le_of_inv {s : State} (h : s.inv) : s.rep ≤ s.cfg.nRepeats - 1 := by
  obtain ⟨-, -, hidle, hrun⟩ := h
  cases hb : s.busy with
  | false =>
    obtain ⟨-, hr, -⟩ := hidle hb
    omega
  | true =>
    obtain ⟨-, -, -, hr, -⟩ := hrun hb
    omega

/-- Settles O51: each counter stays at most the value its width is derived from. -/
theorem countersFitTheirWidths : Obligations.CountersFitTheirWidths := by
  refine ⟨fun s h => ⟨lt_two_pow_bitsFor (cnt_le_cntMax h), lt_two_pow_bitsFor (rep_le_of_inv h), ?_⟩, ?_⟩
  · exact lt_two_pow_bitsFor (Nat.le_of_lt_succ s.slot.isLt)
  · decide

/-! ### The ghost trace beside the registers (R9, R27, log 4) -/

theorem traceOk_of_not_busy {s : State} (hb : s.busy = false) (h : ∀ g ∈ s.trace, 1 ≤ g.dur) : s.traceOk :=
  ⟨h, by simp [hb]⟩

/-- The trace is right again once the segment of the position has been loaded behind a trace without empty segments. -/
theorem traceOk_of_loaded {s : State} {tr : List Segment} {l : Level} {d : Nat} (ht : s.trace = tr ++ [⟨l, d⟩])
    (htr : ∀ g ∈ tr, 1 ≤ g.dur) (hd : 1 ≤ d) (hl : s.segLevel = l) (hs : s.segDur = d) : s.traceOk := by
  subst hl hs
  refine ⟨fun g hg => ?_, fun _ => by simp [ht]⟩
  rw [ht, List.mem_append, List.mem_singleton] at hg
  rcases hg with hg | rfl
  · exact htr g hg
  · exact hd

/-- The move to the next segment: one case for each row of R88 and R89. -/
theorem nextSegment_traceOk {s : State} (hw : s.cfg.wf = true) (h : ∀ g ∈ s.trace, 1 ≤ g.dur) :
    s.nextSegment.traceOk := by
  obtain ⟨-, -, -, hgap⟩ := (wf_iff _).1 hw
  rcases nextSegment_cases s with ⟨hk, -, he⟩ | ⟨k, hk, -, hk', he⟩ | ⟨hk, -, hb, he⟩ | ⟨-, -, -, he⟩ | ⟨-, -, -, he⟩ <;>
    rw [he]
  · exact traceOk_of_loaded rfl h (highDur_pos _ _) (by simp [State.segLevel, hk]) (by simp [State.segDur, hk])
  · refine traceOk_of_loaded rfl h ?_ (segLevel_low rfl) (segDur_low rfl)
    split
    · exact hgap
    · exact lowDur_pos _ _
  · have hpause : 1 ≤ s.cfg.tBurst := ((burstBoundary_iff _ _).1 hb).2.2
    exact traceOk_of_loaded rfl h hpause (by simp [State.segLevel, hk]) (by simp [State.segDur, hk])
  · exact traceOk_of_loaded rfl h (by decide) (segLevel_low rfl) (segDur_low rfl)
  · exact traceOk_of_not_busy rfl h

theorem seqTick_traceOk {s : State} (hw : s.cfg.wf = true) (h : s.traceOk) : s.seqTick.traceOk := by
  unfold State.seqTick
  split
  · exact h
  · exact nextSegment_traceOk hw h.1

/-- An accepted command loads the low part of the start symbol (R86). -/
theorem exec_traceOk {i : Instr} {s t : State} (h : ∀ g ∈ s.trace, 1 ≤ g.dur) (he : exec i s = .next t) :
    t.traceOk := by
  obtain ⟨-, -, -, -, -, -, -, hslot, hhalf, -, htr⟩ := exec_frame he
  exact traceOk_of_loaded htr h (by decide) (segLevel_low hhalf) (by simp [segDur_low hhalf, hslot])

/-- Settles O48, by the cases of a step. -/
theorem stepKeepsTraceInvariant : Obligations.StepKeepsTraceInvariant := by
  intro s t _ htr hs
  obtain ⟨hw, ⟨-, rfl⟩ | ⟨-, -, rfl⟩ | ⟨-, i, -, he⟩ | ⟨-, -, rfl⟩ | ⟨-, -, -, rfl⟩⟩ := step_cases hs
  · exact traceOk_of_not_busy rfl (by simp)
  · exact seqTick_traceOk hw htr
  · exact exec_traceOk (s := s.advancePins) htr.1 he
  · exact htr
  · exact htr

end Sys2Proof.Machine

namespace Sys2Proof.Machine

/-! ### The registers a command writes (R19, R62 to R70) -/

theorem command_families (i : Instr) :
    i ∈ speedCommands ∨ (i = .dirLeft ∨ i = .dirRight) ∨ (i = .lightOff ∨ i = .lightOn) := by
  cases i <;> decide

theorem exec_lastSpd {i : Instr} {s t : State} (h : exec i s = .next t) :
    t.lastSpd = rememberedLevel i s.lastSpd := by
  obtain ⟨u, rfl, hu⟩ := (exec_next_iff i s t).1 h
  cases i with
  | speedOn => obtain ⟨-, rfl⟩ := hu; rfl
  | _ => subst hu; rfl

/-- A SPEED command resolves to 0 if it is SPEED OFF and else to the level it leaves in `LASTSPD`. -/
theorem exec_speed {i : Instr} {s t : State} (h : exec i s = .next t) (hi : i ∈ speedCommands) :
    t.fanCtl = withSpeed s.fanCtl (if i = .speedOff then 0 else t.lastSpd) ∧ t.lightCtl = s.lightCtl := by
  obtain ⟨u, rfl, hu⟩ := (exec_next_iff i s t).1 h
  cases i with
  | speedOn => obtain ⟨-, rfl⟩ := hu; exact ⟨rfl, rfl⟩
  | dirLeft | dirRight | lightOff | lightOn => exact absurd hi (by decide)
  | _ => subst hu; exact ⟨rfl, rfl⟩

theorem exec_dir {i : Instr} {s t : State} (h : exec i s = .next t) (hi : i = .dirLeft ∨ i = .dirRight) :
    t.fanCtl = withDir s.fanCtl (dirPattern i.arg) ∧ t.lightCtl = s.lightCtl := by
  obtain ⟨u, rfl, hu⟩ := (exec_next_iff i s t).1 h
  rcases hi with rfl | rfl <;> (subst hu; exact ⟨rfl, rfl⟩)

theorem exec_light {i : Instr} {s t : State} (h : exec i s = .next t) (hi : i = .lightOff ∨ i = .lightOn) :
    t.fanCtl = s.fanCtl ∧ t.lightCtl = lightByte s.cfg i.arg := by
  obtain ⟨u, rfl, hu⟩ := (exec_next_iff i s t).1 h
  rcases hi with rfl | rfl <;> (subst hu; exact ⟨rfl, rfl⟩)

theorem lightByte_cases (c : Config) (arg : BitVec 3) : lightByte c arg = lightOffByte ∨ lightByte c arg = c.lightOn := by
  unfold lightByte
  split
  · exact .inr rfl
  · exact .inl rfl

/-! ### Every step keeps the invariant (R18, R25, R26) -/

/-- The transmitter's half of the invariant. -/
def State.transmitterOk (s : State) : Prop := (s.busy = false → s.idleOk) ∧ (s.busy = true → s.runningOk)

theorem inv_iff (s : State) : s.inv ↔ s.cfg.wf = true ∧ s.deviceOk ∧ s.transmitterOk := Iff.rfl

theorem transmitterOk_of_idle {s : State} (hb : s.busy = false) (h : s.idleOk) : s.transmitterOk :=
  ⟨fun _ => h, by simp [hb]⟩

theorem transmitterOk_of_running {s : State} (hb : s.busy = true) (h : s.runningOk) : s.transmitterOk :=
  ⟨by simp [hb], fun _ => h⟩

/-- The transmitter is right in whatever state has just loaded the whole segment of its position. -/
theorem runningOk_of_loaded {s : State} (hx : s.tx = s.segLevel) (hc : s.cnt = s.segDur) (hd : 1 ≤ s.cnt)
    (hr : s.rep < s.cfg.nRepeats) (hp : s.slot = 25 → s.half = true → burstBoundary s.cfg s.rep = true) : s.runningOk :=
  ⟨hd, hc.le, hx, hr, hp⟩

/-- A low segment is not a burst pause, so it asks nothing of the burst boundaries. -/
theorem runningOk_of_loaded_low {s : State} (hh : s.half = false) (hx : s.tx = .low)
    (hc : s.cnt = if s.slot.val = 25 then s.cfg.tGap else lowDur s.frame s.slot.val) (hg : 1 ≤ s.cfg.tGap)
    (hr : s.rep < s.cfg.nRepeats) : s.runningOk := by
  refine runningOk_of_loaded (hx.trans (segLevel_low hh).symm) (hc.trans (segDur_low hh).symm) ?_ hr (by simp [hh])
  rw [hc]
  split
  · exact hg
  · exact lowDur_pos _ _

/-- The move to the next segment: one case for each row of R88 and R89. -/
theorem nextSegment_transmitterOk {s : State} (hw : s.cfg.wf = true) (hb : s.busy = true)
    (hr : s.rep < s.cfg.nRepeats) : s.nextSegment.transmitterOk := by
  obtain ⟨-, -, -, hgap⟩ := (wf_iff _).1 hw
  rcases nextSegment_cases s with ⟨hk, -, he⟩ | ⟨k, -, -, -, he⟩ | ⟨hk, -, hp, he⟩ | ⟨-, -, hlt, he⟩ | ⟨-, -, -, he⟩ <;>
    rw [he]
  · refine transmitterOk_of_running hb (runningOk_of_loaded ?_ ?_ (highDur_pos _ _) hr fun h25 _ => ?_)
    · simp [State.segLevel, hk]
    · simp [State.segDur, hk]
    · exact absurd (congrArg Fin.val h25) hk.ne
  · exact transmitterOk_of_running hb (runningOk_of_loaded_low rfl rfl rfl hgap hr)
  · have hpause : 1 ≤ s.cfg.tBurst := ((burstBoundary_iff _ _).1 hp).2.2
    refine transmitterOk_of_running hb (runningOk_of_loaded ?_ ?_ hpause hr fun _ _ => hp)
    · simp [State.segLevel, hk]
    · simp [State.segDur, hk]
  · exact transmitterOk_of_running hb (runningOk_of_loaded_low rfl rfl rfl hgap hlt)
  · exact transmitterOk_of_idle rfl ⟨rfl, rfl, rfl, rfl, rfl⟩

theorem seqTick_transmitterOk {s : State} (hw : s.cfg.wf = true) (hb : s.busy = true) (h : s.runningOk) :
    s.seqTick.transmitterOk := by
  obtain ⟨-, hle, hx, hr, hp⟩ := h
  unfold State.seqTick
  split
  next hgt => exact transmitterOk_of_running hb ⟨Nat.le_sub_one_of_lt hgt, (Nat.sub_le _ _).trans hle, hx, hr, hp⟩
  next => exact nextSegment_transmitterOk hw hb hr

theorem deviceOk_of_sameDevice {s t : State} (hc : t.cfg = s.cfg) (hst : sameDevice s t) (h : s.deviceOk) : t.deviceOk := by
  obtain ⟨ha, hf, hl, hn⟩ := hst
  unfold State.deviceOk
  rwa [hc, ← ha, ← hf, ← hl, ← hn]

theorem seqTick_inv {s : State} (h : s.inv) (hb : s.busy = true) : s.seqTick.inv := by
  obtain ⟨hw, hdev, -, hrun⟩ := h
  obtain ⟨hcfg, ha, hf, hl, hn, -⟩ := seqTick_frame s
  exact (inv_iff _).2 ⟨hcfg ▸ hw, deviceOk_of_sameDevice hcfg ⟨ha.symm, hf.symm, hl.symm, hn.symm⟩ hdev,
    seqTick_transmitterOk hw hb (hrun hb)⟩

/-- SPEED and DIR replace one nibble by a legal one, LIGHT keeps the byte (R69 c, e). -/
theorem exec_fanCtl_legal {i : Instr} {s t : State} (h : exec i s = .next t) (hf : s.fanCtl ∈ legalFanCtl)
    (hn : concreteLevel t.lastSpd = true) : t.fanCtl ∈ legalFanCtl := by
  rcases command_families i with hi | hi | hi
  · rw [(exec_speed h hi).1]
    refine withSpeed_mem_legalFanCtl hf ?_
    split
    · exact .inl rfl
    · exact .inr hn
  · rw [(exec_dir h hi).1]
    exact withDir_mem_legalFanCtl _ hf
  · rwa [(exec_light h hi).1]

/-- LIGHT writes one of the two light bytes, SPEED and DIR keep the byte (R69 e). -/
theorem exec_lightCtl_legal {i : Instr} {s t : State} (h : exec i s = .next t)
    (hl : s.lightCtl = lightOffByte ∨ s.lightCtl = s.cfg.lightOn) :
    t.lightCtl = lightOffByte ∨ t.lightCtl = s.cfg.lightOn := by
  rcases command_families i with hi | hi | hi
  · rwa [(exec_speed h hi).2]
  · rwa [(exec_dir h hi).2]
  · rw [(exec_light h hi).2]
    exact lightByte_cases _ _

/-- Legal registers stay legal under every command (R69 i). -/
theorem exec_deviceOk {i : Instr} {s t : State} (h : exec i s = .next t) (hs : s.deviceOk) : t.deviceOk := by
  obtain ⟨haddr, hfan, hlight, hspd⟩ := hs
  obtain ⟨hcfg, ha, -⟩ := exec_frame h
  have hn : concreteLevel t.lastSpd = true := exec_lastSpd h ▸ concreteLevel_rememberedLevel i hspd
  unfold State.deviceOk
  rw [hcfg, ha]
  exact ⟨haddr, exec_fanCtl_legal h hfan hn, exec_lightCtl_legal h hlight, hn⟩

theorem exec_transmitterOk {i : Instr} {s t : State} (h : exec i s = .next t) (hw : s.cfg.wf = true) :
    t.transmitterOk := by
  obtain ⟨-, hn, -, hgap⟩ := (wf_iff _).1 hw
  obtain ⟨hcfg, -, -, -, hb, hx, hr, hslot, hhalf, hcnt, -⟩ := exec_frame h
  refine transmitterOk_of_running hb (runningOk_of_loaded_low hhalf hx ?_ (hcfg ▸ hgap) ?_)
  · simp [hcnt, hslot]
  · rw [hr, hcfg]; exact hn

theorem resetEdge_inv {s : State} (hw : s.cfg.wf = true) (ha : s.fanAddr = s.cfg.addr) : s.resetEdge.inv :=
  (inv_iff _).2 ⟨hw, ⟨ha, .head _, .inl rfl, rfl⟩, transmitterOk_of_idle rfl ⟨rfl, rfl, rfl, rfl, rfl⟩⟩

theorem exec_inv {i : Instr} {s t : State} (h : exec i s = .next t) (hs : s.inv) : t.inv := by
  obtain ⟨hw, hdev, -⟩ := hs
  exact (inv_iff _).2 ⟨(exec_frame h).1 ▸ hw, exec_deviceOk h hdev, exec_transmitterOk h hw⟩

/-- One case for each row of the priority order of R90. The invariant does not speak of the host's drive, so that it holds of
`s.advancePins` as it does of `s`. -/
theorem step_inv {s t : State} (hs : s.inv) (h : step s = .next t) : t.inv := by
  have hadv : s.advancePins.inv := hs
  obtain ⟨hw, ⟨-, rfl⟩ | ⟨-, hb, rfl⟩ | ⟨-, i, -, he⟩ | ⟨-, -, rfl⟩ | ⟨-, -, -, rfl⟩⟩ := step_cases h
  · obtain ⟨-, ⟨haddr, -⟩, -⟩ := hadv
    exact resetEdge_inv hw haddr
  · exact seqTick_inv hadv hb
  · exact exec_inv he hadv
  · exact hadv
  · exact hadv

/-- Settles O47: a step answers because the parameters and `LASTSPD` are legal, and what it answers meets the invariant by
the cases of a step. -/
theorem stepKeepsInvariant : Obligations.StepKeepsInvariant := by
  intro s hs
  have ⟨hw, ⟨_, _, _, hspd⟩, _⟩ := hs
  obtain ⟨t, ht⟩ := step_answers hw hspd
  exact ⟨t, ht, step_inv hs ht⟩

/-! ### What each command leaves unchanged (R19, R69, R70) -/

/-- SPEED 1 to SPEED 6 are the SPEED commands that store a level, whatever was remembered before. -/
theorem of_mem_levelRows {i : Instr} {n : Speed} (h : (i, n) ∈ levelRows) :
    i ∈ speedCommands ∧ i ≠ .speedOff ∧ ∀ m, rememberedLevel i m = n := by
  simp only [levelRows, List.mem_cons, Prod.mk.injEq, List.not_mem_nil, or_false] at h
  rcases h with ⟨rfl, rfl⟩ | ⟨rfl, rfl⟩ | ⟨rfl, rfl⟩ | ⟨rfl, rfl⟩ | ⟨rfl, rfl⟩ | ⟨rfl, rfl⟩ <;>
    exact ⟨by decide, by decide, fun _ => rfl⟩

theorem exec_lastSpd_of_level {i : Instr} {n : Speed} {s t : State} (h : exec i s = .next t) (hi : (i, n) ∈ levelRows) :
    t.lastSpd = n := by
  obtain ⟨-, -, hn⟩ := of_mem_levelRows hi
  rw [exec_lastSpd h, hn]

theorem exec_lastSpd_of_nonLevel {i : Instr} {s t : State} (h : exec i s = .next t) (hi : i ∈ nonLevelCommands) :
    t.lastSpd = s.lastSpd := by
  rw [exec_lastSpd h, rememberedLevel_of_nonLevel hi]

theorem exec_spdField_of_resolved {i : Instr} {s t : State} (h : exec i s = .next t) (hi : i ∈ speedCommands)
    (hoff : i ≠ .speedOff) : spdField t.fanCtl = t.lastSpd.zeroExtend 4 := by
  rw [(exec_speed h hi).1, spdField_withSpeed, if_neg hoff]

theorem exec_lightCtl_of_not_light {i : Instr} {s t : State} (h : exec i s = .next t) (hoff : i ≠ .lightOff)
    (hon : i ≠ .lightOn) : t.lightCtl = s.lightCtl := by
  rcases command_families i with hi | hi | hi
  · exact (exec_speed h hi).2
  · exact (exec_dir h hi).2
  · exact absurd hi (by simp [hoff, hon])

/-- Settles O20, clause by clause from what each family of commands writes. -/
theorem commandFrame : Obligations.CommandFrame := by
  intro i s t h
  obtain ⟨hcfg, haddr, hin, hpast, -, -, -, -, -, -, htrace⟩ := exec_frame h
  refine ⟨hcfg, haddr, hin, hpast, fun hi => ?_, fun n hi => ?_, ?_, ?_, fun hi => ?_, ?_, ?_,
    fun hi => (exec_light h hi).1, exec_lightCtl_of_not_light h, exec_lastSpd_of_nonLevel h, htrace⟩
  · rw [(exec_speed h hi).1, dirField_withSpeed]
  · obtain ⟨hspeed, hoff, -⟩ := of_mem_levelRows hi
    have hn := exec_lastSpd_of_level h hi
    exact ⟨hn ▸ exec_spdField_of_resolved h hspeed hoff, hn⟩
  · rintro rfl
    rw [exec_spdField_of_resolved h (by decide) (by decide), exec_lastSpd_of_nonLevel h (by decide)]
  · rintro rfl
    rw [(exec_speed h (by decide)).1, spdField_withSpeed]
    rfl
  · rw [(exec_dir h hi).1, spdField_withDir]
  · rintro rfl
    rw [(exec_dir h (.inl rfl)).1]
    exact dirField_withDir_left _
  · rintro rfl
    rw [(exec_dir h (.inr rfl)).1]
    exact dirField_withDir_right _

/-! ### Facts that hold along a run -/

/-- What every step keeps holds at the end of every run. -/
theorem ticks_preserves {P : State → Prop} (hstep : ∀ s t, P s → step s = .next t → P t) {n : Nat} {s t : State}
    (hs : P s) (h : ticks n s = .next t) : P t := by
  induction n generalizing t with
  | zero =>
    cases h
    exact hs
  | succ n ih =>
    obtain ⟨u, hu, hut⟩ := ticks_succ_next h
    exact hstep u t (ih hu) hut

theorem step_fanAddr_cfg {s t : State} (h : step s = .next t) : t.fanAddr = s.fanAddr ∧ t.cfg = s.cfg := by
  obtain ⟨-, ⟨-, rfl⟩ | ⟨-, -, rfl⟩ | ⟨-, i, -, he⟩ | ⟨-, -, rfl⟩ | ⟨-, -, -, rfl⟩⟩ := step_cases h
  · exact ⟨rfl, rfl⟩
  · obtain ⟨hcfg, haddr, -⟩ := seqTick_frame s.advancePins
    exact ⟨haddr, hcfg⟩
  · obtain ⟨hcfg, haddr, -⟩ := exec_frame he
    exact ⟨haddr, hcfg⟩
  · exact ⟨rfl, rfl⟩
  · exact ⟨rfl, rfl⟩

/-- Settles O52, by induction on the run. -/
theorem addressAndParametersConstant : Obligations.AddressAndParametersConstant := by
  intro n s t h
  refine ticks_preserves (P := fun u => u.fanAddr = s.fanAddr ∧ u.cfg = s.cfg) (fun u v hu huv => ?_) ⟨rfl, rfl⟩ h
  obtain ⟨haddr, hcfg⟩ := step_fanAddr_cfg huv
  exact ⟨haddr.trans hu.1, hcfg.trans hu.2⟩

/-! ### The words that write `LASTSPD` (R17, R53) -/

theorem decode_level_word (w : Byte) (h₁ : 0x11 ≤ w.toNat) (h₂ : w.toNat ≤ 0x16) :
    ∃ r ∈ levelRows, decode w = .ok r.1 ∧ argField w = r.2 := by
  revert w
  decide

theorem mem_opcodeRows_of_decode {w : Byte} {i : Instr} (h : decode w = .ok i) : (w, i) ∈ opcodeRows := by
  unfold decode at h
  split at h
  next j hj =>
    cases h
    obtain ⟨l₁, l₂, hl, -⟩ := List.lookup_eq_some_iff.1 hj
    simp [hl]
  next => cases h

theorem nonLevel_of_decode {w : Byte} {i : Instr} (h : decode w = .ok i) (hw : ¬ (0x11 ≤ w.toNat ∧ w.toNat ≤ 0x16)) :
    i ∈ nonLevelCommands := by
  have hrows : ∀ r ∈ opcodeRows, ¬ (0x11 ≤ r.1.toNat ∧ r.1.toNat ≤ 0x16) → r.2 ∈ nonLevelCommands := by decide
  exact hrows _ (mem_opcodeRows_of_decode h) hw

/-- A step that neither resets the block nor accepts the word of a level keeps `LASTSPD`. -/
theorem step_lastSpd_of_no_level {s t : State} (h : step s = .next t) (hr : s.pins.rst = false)
    (hl : ¬ (s.accepts = true ∧ 0x11 ≤ s.pins.cmdWord.toNat ∧ s.pins.cmdWord.toNat ≤ 0x16)) : t.lastSpd = s.lastSpd := by
  obtain ⟨-, ⟨hr', -⟩ | ⟨-, -, rfl⟩ | ⟨ha, i, hd, he⟩ | ⟨-, -, rfl⟩ | ⟨-, -, -, rfl⟩⟩ := step_cases h
  · simp [hr] at hr'
  · obtain ⟨-, -, -, -, hn, -⟩ := seqTick_frame s.advancePins
    exact hn
  · exact exec_lastSpd_of_nonLevel (s := s.advancePins) he (nonLevel_of_decode hd fun hw => hl ⟨ha, hw⟩)
  · rfl
  · rfl

theorem step_lastSpd_of_level {s t : State} (h : step s = .next t) (ha : s.accepts = true)
    (h₁ : 0x11 ≤ s.pins.cmdWord.toNat) (h₂ : s.pins.cmdWord.toNat ≤ 0x16) : t.lastSpd = argField s.pins.cmdWord := by
  obtain ⟨hw, -⟩ := step_cases h
  obtain ⟨r, hrow, hd, harg⟩ := decode_level_word _ h₁ h₂
  rw [step_eq_exec_of_accepts hw ha hd] at h
  rw [harg, exec_lastSpd_of_level h hrow]

theorem step_reset_eq {s t : State} (h : step s = .next t) (hr : s.pins.rst = true) : t = s.advancePins.resetEdge := by
  obtain ⟨hw, -⟩ := step_cases h
  rw [step_reset hw hr] at h
  cases h
  rfl

/-- Settles O53: a reset edge, the word of a level, every other step. -/
theorem lastSpeedWriters : Obligations.LastSpeedWriters := by
  intro s t h
  refine ⟨fun hr => ?_, fun _ => step_lastSpd_of_level h, step_lastSpd_of_no_level h⟩
  rw [step_reset_eq h hr]
  rfl

/-! ### The ghost traces at a reset edge (R27, log 5) -/

section
variable {w : List Segment} {g : Segment} (hg : w.getLast? = some g)
include hg

theorem cutLast_of_getLast? (cnt : Nat) : cutLast cnt w = w.dropLast ++ [⟨g.level, g.dur + 1 - cnt⟩] := by
  rw [cutLast, hg]

/-- The cut leaves out the ticks the segment still had to spend, but for the one of the reset edge. -/
theorem totalDur_cutLast {cnt : Nat} (hc : cnt ≤ g.dur) : totalDur (cutLast cnt w) + cnt = totalDur w + 1 := by
  have hw : totalDur w.dropLast + g.dur = totalDur w := by
    rw [← List.dropLast_append_getLast? g hg]
    simp
  rw [cutLast_of_getLast? hg, totalDur_append, totalDur_cons, totalDur_nil]
  show totalDur w.dropLast + (g.dur + 1 - cnt + 0) + cnt = totalDur w + 1
  omega

theorem length_cutLast (cnt : Nat) : (cutLast cnt w).length = w.length := by
  rw [cutLast_of_getLast? hg, ← List.dropLast_append_getLast? g hg]
  simp

theorem cutLast_dur_pos {cnt : Nat} (hc : cnt ≤ g.dur) (hw : ∀ x ∈ w, 1 ≤ x.dur) : ∀ x ∈ cutLast cnt w, 1 ≤ x.dur := by
  intro x hx
  rw [cutLast_of_getLast? hg, List.mem_append, List.mem_singleton] at hx
  rcases hx with hx | rfl
  · exact hw x (List.mem_of_mem_dropLast hx)
  · show 1 ≤ g.dur + 1 - cnt
    omega

end

theorem heldTrace_idle {s : State} (h : s.busy = false) : s.heldTrace = s.trace := by simp [State.heldTrace, h]

theorem heldTrace_busy {s : State} (h : s.busy = true) : s.heldTrace = cutLast s.cnt s.trace := by
  simp [State.heldTrace, h]

theorem step_reset_past {s t : State} (h : step s = .next t) (hr : s.pins.rst = true) : t.past = s.past ++ s.heldTrace := by
  rw [step_reset_eq h hr]
  rfl

/-- Settles O44: the edge appends the held trace, whose last segment is the one being played, cut to the ticks it was held. -/
theorem resetEdgeKeepsPastTrace : Obligations.ResetEdgeKeepsPastTrace := by
  intro s t ⟨_, _, _, hrun⟩ ⟨hpos, hlast⟩ hr h
  have hpast := step_reset_past h hr
  refine ⟨by rw [step_reset_eq h hr, State.resetEdge_trace], fun hb => by rw [hpast, heldTrace_idle hb], fun hb => ?_⟩
  obtain ⟨-, hc, -⟩ := hrun hb
  have hg := hlast hb
  rw [heldTrace_busy hb] at hpast
  rw [hpast]
  refine ⟨by rw [cutLast_of_getLast? hg, List.append_assoc], ?_, ?_, fun x hx => ?_⟩
  · have := totalDur_cutLast hg hc
    rw [totalDur_append]
    omega
  · rw [List.length_append, length_cutLast hg]
  · exact (List.mem_append.1 hx).imp id (cutLast_dur_pos hg hc hpos x)

/-! ### The reset state and the status port (R18, R28, R29, R71) -/

theorem statusRead_eq_some_iff (s : State) (r : Status) :
    s.statusRead = some r ↔ s.busy = false ∧ r = ⟨s.speedBits, s.dirFlag, s.lightFlag⟩ := by
  cases hb : s.busy <;> simp [State.statusRead, hb, eq_comm]

theorem resetWith_statusRead (c : Config) : (State.resetWith c).statusRead = some ⟨0#3, false, false⟩ := by
  have hdir : (State.resetWith c).dirFlag = false := BitVec.getLsbD_zero
  refine (statusRead_eq_some_iff _ _).2 ⟨rfl, ?_⟩
  rw [hdir]
  rfl

/-- Settles O40: each register of the reset state, and the status read of an idle block. -/
theorem resetValues : Obligations.ResetValues := fun c =>
  ⟨rfl, rfl, rfl, rfl, rfl, rfl, rfl, rfl, rfl, rfl, rfl, rfl, resetWith_statusRead c, rfl⟩

theorem resetWith_inv {c : Config} (hc : c.wf = true) (drive : List PortIn) :
    { State.resetWith c with inputs := drive }.inv :=
  (inv_iff _).2 ⟨hc, ⟨rfl, .head _, .inl rfl, rfl⟩, transmitterOk_of_idle rfl ⟨rfl, rfl, rfl, rfl, rfl⟩⟩

theorem resetWith_traceOk (c : Config) (drive : List PortIn) : { State.resetWith c with inputs := drive }.traceOk :=
  traceOk_of_not_busy rfl (by simp [State.resetWith])

/-- Settles O46; the reset state of the default block is the one whose host drives nothing. -/
theorem resetMeetsInvariant : Obligations.ResetMeetsInvariant :=
  ⟨resetWith_inv (c := Config.default) (by decide) [], resetWith_traceOk Config.default [],
    fun c drive hc => ⟨resetWith_inv hc drive, resetWith_traceOk c drive⟩⟩

/-- In the fourteen values the status port shows both nibbles whole. -/
theorem legalFanCtl_fields {b : Byte} (h : b ∈ legalFanCtl) :
    (b.extractLsb' 0 3).toNat ≤ 6 ∧ (b.extractLsb' 0 3).zeroExtend 4 = spdField b ∧
      dirField b = if b.getLsbD 5 then 0x2#4 else 0x0#4 := by
  revert b
  decide

theorem lightFlag_eq_false_iff (s : State) : s.lightFlag = false ↔ s.lightCtl = 0x00#8 := by
  simp [State.lightFlag]

/-- With one of the two legal light bytes, of which `LIGHT_ON` is not zero (R6), the light flag tells them apart. -/
theorem lightFlag_eq_true_iff {s : State} (hw : s.cfg.wf = true)
    (hl : s.lightCtl = lightOffByte ∨ s.lightCtl = s.cfg.lightOn) :
    s.lightFlag = true ↔ s.lightCtl = s.cfg.lightOn := by
  have hon : s.cfg.lightOn ≠ 0#8 := ((wf_iff _).1 hw).1
  rcases hl with hl | hl
  · simp [State.lightFlag, hl, lightOffByte, hon.symm]
  · simp [State.lightFlag, hl, hon]

/-- Settles O56, from the legal values of `FANCTL` and of `LIGHTCTL`. -/
theorem statusOnReachableStates : Obligations.StatusOnReachableStates := by
  intro s r ⟨hw, ⟨_, hfan, hlight, _⟩, _⟩ h
  obtain ⟨-, rfl⟩ := (statusRead_eq_some_iff s r).1 h
  obtain ⟨hspeed, hspd, hdir⟩ := legalFanCtl_fields hfan
  exact ⟨hspeed, hspd, hdir, lightFlag_eq_true_iff hw hlight, lightFlag_eq_false_iff s⟩

end Sys2Proof.Machine

namespace Sys2Proof.Machine

/-! ### One edge, as the handshake sees it (R33, R40, R46) -/

theorem decode_encode (i : Instr) : decode (encode i) = .ok i := by cases i <;> rfl

theorem tableByte_encode (i : Instr) : tableByte 8 (encode i).toNat = encode i := by
  rw [tableByte, Nat.mod_eq_of_lt (encode i).isLt, BitVec.ofNat_toNat, BitVec.setWidth_eq]

theorem withFetchWord_cfg (s : State) (nbits w : Nat) : (s.withFetchWord nbits w).cfg = s.cfg := by
  unfold State.withFetchWord State.offerNext
  split <;> rfl

/-- A word put on the port is accepted at the next edge, the transmitter being idle there (log 3). -/
theorem withFetchWord_accepts (s : State) (nbits w : Nat) : (s.withFetchWord nbits w).accepts = true := by
  refine (accepts_iff _).2 ⟨rfl, rfl, ?_⟩
  unfold State.withFetchWord State.offerNext
  cases hb : s.busy <;> simp [hb]

theorem decode_withFetchWord_encode (s : State) (i : Instr) :
    decode (s.withFetchWord 8 (encode i).toNat).pins.cmdWord = .ok i := by
  show decode (tableByte 8 (encode i).toNat) = .ok i
  rw [tableByte_encode, decode_encode]

/-- Settles O7: the last clause is the second for the word `withFetchWord` puts on the port. -/
theorem stepRunsDecodedCommand : Obligations.StepRunsDecodedCommand :=
  ⟨accepts_iff, fun _ _ => step_eq_exec_of_accepts, fun s i hw =>
    step_eq_exec_of_accepts ((withFetchWord_cfg s _ _).symm ▸ hw) (withFetchWord_accepts s _ _)
      (decode_withFetchWord_encode s i)⟩

theorem step_cons_inputs (s : State) (p : PortIn) (rest : List PortIn) :
    step { s with inputs := p :: rest } =
      if s.cfg.wf then blockEdge p { s with inputs := rest } else .refused .configIllFormed := rfl

/-- An edge that accepts no word looks at no pin but `rst`. -/
theorem blockEdge_of_not_accepting {p q : PortIn} {s : State} (hr : p.rst = q.rst)
    (h : s.busy = true ∨ p.rst = true ∨ (p.cmdValid = false ∧ q.cmdValid = false)) : blockEdge p s = blockEdge q s := by
  unfold blockEdge
  rw [← hr]
  rcases h with hb | hrst | ⟨hp, hq⟩
  · simp [hb]
  · simp [hrst]
  · simp [hp, hq]

/-- Settles O9: the two steps differ only in the pins that the edge of the block sees. -/
theorem offerNotAcceptedHasNoEffect : Obligations.OfferNotAcceptedHasNoEffect := by
  intro s p q rest hr h
  have he : blockEdge p { s with inputs := rest } = blockEdge q { s with inputs := rest } := blockEdge_of_not_accepting hr h
  rw [step_cons_inputs, step_cons_inputs, he]

/-- Settles O54, by the cases of a step: a reset and an accepted legal word are excluded. -/
theorem deviceChangesOnlyAtAcceptance : Obligations.DeviceChangesOnlyAtAcceptance := by
  intro s t h hr hl
  obtain ⟨-, ⟨hr', -⟩ | ⟨-, hb, rfl⟩ | ⟨ha, i, hd, -⟩ | ⟨-, -, rfl⟩ | ⟨-, -, -, rfl⟩⟩ := step_cases h
  · simp [hr] at hr'
  · obtain ⟨-, haddr, hfan, hlight, hspd, -⟩ := seqTick_frame s.advancePins
    exact ⟨⟨haddr.symm, hfan.symm, hlight.symm, hspd.symm⟩, fun _ => hb⟩
  · exact absurd ⟨ha, (legalWord_iff _).2 ⟨i, hd⟩⟩ hl
  · exact ⟨⟨rfl, rfl, rfl, rfl⟩, id⟩
  · exact ⟨⟨rfl, rfl, rfl, rfl⟩, id⟩

/-! ### The order of the frame's bits (R36, R37, R74) -/

/-- Settles O25: the 24-bit word read from the top, byte by byte. -/
theorem frameBitOrder : Obligations.FrameBitOrder := by
  intro a b c i h₁ h₈
  unfold frameBit frameOf
  have haddr : 24 - i = 16 + (8 - i) := by omega
  have hfan : 24 - (8 + i) = 8 + (8 - i) := by omega
  have hlight : 24 - (16 + i) = 8 - i := by omega
  refine ⟨?_, ?_, ?_⟩
  · rw [haddr, BitVec.getLsbD_append, BitVec.getLsbD_append, if_neg (by omega), if_neg (by omega)]
    congr 1; omega
  · rw [hfan, BitVec.getLsbD_append, BitVec.getLsbD_append, if_neg (by omega), if_pos (by omega)]
    congr 1; omega
  · rw [hlight, BitVec.getLsbD_append, if_pos (by omega)]

/-! ### A running transmission ends (R44, R84, R94) -/

/-- When the segment at the sequencer's position began, in ticks after the transmission's first. -/
def State.segBegin (s : State) : Nat :=
  s.rep * tRepeat s.cfg + pausesBefore s.cfg s.rep * s.cfg.tBurst + s.slot.val * tSlot +
    if s.half then (if s.slot.val < 25 then lowDur s.frame s.slot.val else s.cfg.tGap) else 0

/-- The ticks a running transmission has been on the line. -/
def State.played (s : State) : Nat := s.segBegin + (s.segDur - s.cnt)

theorem lowDur_add_highDur (f : Frame) (i : Nat) : lowDur f i + highDur f i = tSlot := by
  have := lowDur_le f i
  have : tLong ≤ tSlot := by decide
  unfold highDur
  omega

theorem segBegin_low {s : State} (h : s.half = false) :
    s.segBegin = s.rep * tRepeat s.cfg + pausesBefore s.cfg s.rep * s.cfg.tBurst + s.slot.val * tSlot := by
  simp [State.segBegin, h]

/-- The high part of a symbol ends with its slot. -/
theorem segEnd_eq_slotEnd {s : State} (hk : s.slot.val < 25) (hh : s.half = true) :
    s.segBegin + s.segDur =
      s.rep * tRepeat s.cfg + pausesBefore s.cfg s.rep * s.cfg.tBurst + (s.slot.val + 1) * tSlot := by
  rw [Nat.succ_mul]
  simp [State.segBegin, State.segDur, hk, hh, Nat.add_assoc, lowDur_add_highDur]

theorem pausesBefore_mono (c : Config) {m n : Nat} (h : m ≤ n) : pausesBefore c m ≤ pausesBefore c n := by
  unfold pausesBefore
  split
  · exact le_rfl
  · exact Nat.div_le_div_right (min_le_min_right _ h)

/-- The end of repeat `r` lies inside the transmission. -/
theorem repeatEnd_le_tTotal {c : Config} {r : Nat} (h : r < c.nRepeats) :
    (r + 1) * tRepeat c + pausesBefore c (r + 1) * c.tBurst ≤ tTotal c := by
  rw [tTotal, ← pausesBefore_nRepeats]
  exact Nat.add_le_add (Nat.mul_le_mul_right _ h) (Nat.mul_le_mul_right _ (pausesBefore_mono c h))

/-- Where repeat `r` ends, counted from its first tick. -/
theorem repeatEnd_eq (c : Config) (r : Nat) :
    (r + 1) * tRepeat c + pausesBefore c (r + 1) * c.tBurst =
      r * tRepeat c + pausesBefore c r * c.tBurst + (25 * tSlot + c.tGap) +
        (if burstBoundary c r = true then c.tBurst else 0) := by
  rw [pausesBefore_succ]
  split
  · rw [tRepeat]; ring
  · rw [tRepeat]; ring

/-- The last segment of the trailer ends with its repeat. -/
theorem segEnd_eq_repeatEnd {s : State} (h25 : s.slot.val = 25)
    (hp : s.half = true → burstBoundary s.cfg s.rep = true) (hlast : s.half = true ∨ burstBoundary s.cfg s.rep = false) :
    s.segBegin + s.segDur = (s.rep + 1) * tRepeat s.cfg + pausesBefore s.cfg (s.rep + 1) * s.cfg.tBurst := by
  rw [repeatEnd_eq]
  cases hh : s.half with
  | false =>
    have hb : burstBoundary s.cfg s.rep = false := hlast.resolve_left (by simp [hh])
    simp [State.segBegin, State.segDur, hh, h25, hb, Nat.add_assoc]
  | true => simp [State.segBegin, State.segDur, hh, h25, hp hh, Nat.add_assoc]

/-- No segment ends after its repeat. -/
theorem segEnd_le_repeatEnd {s : State} (hp : s.slot = 25 → s.half = true → burstBoundary s.cfg s.rep = true) :
    s.segBegin + s.segDur ≤ (s.rep + 1) * tRepeat s.cfg + pausesBefore s.cfg (s.rep + 1) * s.cfg.tBurst := by
  rcases Nat.lt_or_ge s.slot.val 25 with hk | hk
  · rw [repeatEnd_eq]
    have hslot : (s.slot.val + 1) * tSlot ≤ 25 * tSlot := Nat.mul_le_mul_right _ hk
    cases hh : s.half with
    | false =>
      have hlow : s.segDur = lowDur s.frame s.slot.val := by simp [State.segDur, hh, hk]
      have hsum := lowDur_add_highDur s.frame s.slot.val
      rw [segBegin_low hh, hlow]
      rw [Nat.succ_mul] at hslot
      omega
    | true =>
      rw [segEnd_eq_slotEnd hk hh]
      omega
  · have h25 : s.slot = 25 := Fin.ext (Nat.le_antisymm (Nat.le_of_lt_succ s.slot.isLt) hk)
    cases hh : s.half with
    | false => rw [repeatEnd_eq]; simp [State.segBegin, State.segDur, hh, h25, Nat.add_assoc]
    | true => exact (segEnd_eq_repeatEnd (congrArg Fin.val h25) (hp h25) (.inl hh)).le

theorem sameDevice_trans {s t u : State} (h₁ : sameDevice s t) (h₂ : sameDevice t u) : sameDevice s u := by
  obtain ⟨ha, hf, hl, hn⟩ := h₁
  obtain ⟨ha', hf', hl', hn'⟩ := h₂
  exact ⟨ha.trans ha', hf.trans hf', hl.trans hl', hn.trans hn'⟩

theorem played_lt_tTotal {s : State} (h : s.runningOk) : s.played < tTotal s.cfg := by
  obtain ⟨hpos, hle, -, hr, hp⟩ := h
  have hend := (segEnd_le_repeatEnd hp).trans (repeatEnd_le_tTotal hr)
  unfold State.played
  omega

/-- The next segment is loaded whole and begins where this one ends: one case for each row of R88 and R89, the last of which
ends the transmission. -/
theorem nextSegment_segBegin {s : State} (hp : s.slot = 25 → s.half = true → burstBoundary s.cfg s.rep = true)
    (hb : s.nextSegment.busy = true) :
    s.nextSegment.cnt = s.nextSegment.segDur ∧ s.nextSegment.segBegin = s.segBegin + s.segDur := by
  rcases nextSegment_cases s with
    ⟨hk, hh, he⟩ | ⟨k, hk, hh, hk', he⟩ | ⟨hk, hh, -, he⟩ | ⟨hk, hlast, -, he⟩ | ⟨-, -, -, he⟩ <;> rw [he] at hb ⊢
  · exact ⟨by simp [State.segDur, hk], by simp [State.segBegin, State.segDur, hk, hh]⟩
  · refine ⟨by rw [segDur_low rfl]; rfl, ?_⟩
    rw [segBegin_low rfl, segEnd_eq_slotEnd hk hh]
    simp [hk']
  · exact ⟨by simp [State.segDur, hk], by simp [State.segBegin, State.segDur, hk, hh]⟩
  · refine ⟨by rw [segDur_low rfl]; rfl, ?_⟩
    rw [segEnd_eq_repeatEnd hk (hp (Fin.ext hk)) hlast]
    simp [State.segBegin]
  · exact absurd hb (by simp)

/-- A tick of a transmission that goes on adds one tick. -/
theorem seqTick_played {s : State} (h : s.runningOk) (hb : s.seqTick.busy = true) : s.seqTick.played = s.played + 1 := by
  obtain ⟨hpos, hle, -, -, hp⟩ := h
  unfold State.seqTick at hb ⊢
  split
  next hgt =>
    show s.segBegin + (s.segDur - (s.cnt - 1)) = s.segBegin + (s.segDur - s.cnt) + 1
    omega
  next hgt =>
    rw [if_neg hgt] at hb
    obtain ⟨hcnt, hbegin⟩ := nextSegment_segBegin hp hb
    unfold State.played
    omega

/-- By induction on the ticks left, which are never more than `k`. -/
theorem exists_idle_within {k : Nat} {s : State} (hi : s.inv) (hb : s.busy = true) (hr : s.noReset k)
    (hk : tTotal s.cfg ≤ s.played + k) :
    ∃ n u, n ≤ k ∧ ticks n s = .next u ∧ u.busy = false ∧ u.tx = .high ∧ sameDevice s u := by
  induction k generalizing s with
  | zero =>
    obtain ⟨-, -, -, hrun⟩ := hi
    exact absurd hk (Nat.not_le.2 (played_lt_tTotal (hrun hb)))
  | succ k ih =>
    obtain ⟨hrst, hrest⟩ := noReset_succ hr
    have ⟨hw, _, _, hrun⟩ := hi
    have hs : step s = .next s.advancePins.seqTick := step_busy hw hrst hb
    have hti : s.advancePins.seqTick.inv := step_inv hi hs
    obtain ⟨hcfg, ha, hf, hl, hn, hin, -⟩ := seqTick_frame s.advancePins
    have hdev : sameDevice s s.advancePins.seqTick := ⟨ha.symm, hf.symm, hl.symm, hn.symm⟩
    cases htb : s.advancePins.seqTick.busy with
    | false =>
      obtain ⟨-, -, hidle, -⟩ := hti
      obtain ⟨hx, -⟩ := hidle htb
      exact ⟨1, _, Nat.succ_pos k, ticks_succ_of_step hs 0, htb, hx, hdev⟩
    | true =>
      have hplayed : s.advancePins.seqTick.played = s.played + 1 := seqTick_played (hrun hb) htb
      have hleft : tTotal s.advancePins.seqTick.cfg ≤ s.advancePins.seqTick.played + k := by
        rwa [hcfg, hplayed, Nat.add_assoc, Nat.add_comm 1]
      obtain ⟨n, u, hnk, hu, hub, hux, hud⟩ := ih hti htb (hrest _ hin) hleft
      exact ⟨n + 1, u, Nat.succ_le_succ hnk, by rw [ticks_succ_of_step hs, hu], hub, hux, sameDevice_trans hdev hud⟩

/-- Settles O36: the transmission has at most `T_total` ticks left. -/
theorem runningTransmissionEnds : Obligations.RunningTransmissionEnds :=
  fun _ hi hb hr => exists_idle_within hi hb hr (Nat.le_add_left _ _)

/-! ### Runs and atomic steps (R40, R42) -/

/-- An edge without a reset starts a transmission only by accepting a legal word. -/
theorem legal_of_step_starts {s t : State} (h : step s = .next t) (hr : s.pins.rst = false) (hb : s.busy = false)
    (ht : t.busy = true) : s.accepts = true ∧ ∃ i, decode s.pins.cmdWord = .ok i := by
  by_contra hc
  rw [← legalWord_iff] at hc
  have := (deviceChangesOnlyAtAcceptance s t h hr hc).2 ht
  simp [hb] at this

theorem step_inputs {s t : State} (h : step s = .next t) : t.inputs = s.inputs.tail := by
  obtain ⟨-, ⟨-, rfl⟩ | ⟨-, -, rfl⟩ | ⟨-, i, -, he⟩ | ⟨-, -, rfl⟩ | ⟨-, -, -, rfl⟩⟩ := step_cases h
  · rfl
  · obtain ⟨-, -, -, -, -, hin, -⟩ := seqTick_frame s.advancePins
    exact hin
  · obtain ⟨-, -, hin, -⟩ := exec_frame he
    exact hin
  · rfl
  · rfl

theorem ticks_inputs {n : Nat} {s t : State} (h : ticks n s = .next t) : t.inputs = s.inputs.drop n := by
  induction n generalizing t with
  | zero => cases h; rfl
  | succ n ih =>
    obtain ⟨u, hu, hut⟩ := ticks_succ_next h
    rw [step_inputs hut, ih hu, List.tail_drop]

/-- The first edge of a run. -/
theorem ticks_succ_first {n : Nat} {s t : State} (h : ticks (n + 1) s = .next t) :
    ∃ u, step s = .next u ∧ ticks n u = .next t := by
  simp only [ticks] at h
  cases hs : step s with
  | next u => rw [hs] at h; exact ⟨u, rfl, h⟩
  | fault r => rw [hs] at h; cases h
  | refused r => rw [hs] at h; cases h

/-- The `n` edges from `s` to `t` accept the words `ws` and leave what their atomic steps leave, the host's drive aside. -/
structure AtomicRun (n : Nat) (ws : List Byte) (s t : State) : Prop where
  run : ticks n s = .next t
  accepted : acceptedWords n s = ws
  atomic : transactWords ws { s with inputs := [] } = .next { t with inputs := [] }

theorem AtomicRun.refl (s : State) : AtomicRun 0 [] s s := ⟨rfl, rfl, rfl⟩

theorem AtomicRun.trans {m n : Nat} {vs ws : List Byte} {s t u : State} (h₁ : AtomicRun m vs s t)
    (h₂ : AtomicRun n ws t u) : AtomicRun (m + n) (vs ++ ws) s u where
  run := by rw [ticks_add_of_next h₁.run, h₂.run]
  accepted := by rw [acceptedWords_add h₁.run, h₁.accepted, h₂.accepted]
  atomic := by rw [transactWords_append, h₁.atomic]; exact h₂.atomic

theorem acceptedWords_one {s t : State} (h : step s = .next t) :
    acceptedWords 1 s = if s.accepts then [s.pins.cmdWord] else [] := by
  rw [acceptedWords_succ h, acceptedWords, List.append_nil]

theorem accepts_eq_false_of_busy {s : State} (h : s.busy = true) : s.accepts = false := by simp [State.accepts, h]

theorem acceptedWords_of_busy {n : Nat} {s : State} (h : ∀ j < n, ∃ u, ticks j s = .next u ∧ u.busy = true) :
    acceptedWords n s = [] := by
  induction n with
  | zero => rfl
  | succ n ih =>
    obtain ⟨u, hu, hb⟩ := h n n.lt_succ_self
    rw [acceptedWords_add hu, ih fun j hj => h j (hj.trans n.lt_succ_self), List.nil_append, acceptedWords,
      accepts_eq_false_of_busy hb]
    cases step u <;> rfl

theorem transactWords_singleton (w : Byte) (s : State) : transactWords [w] s = transactWord w s := by
  simp only [transactWords]
  cases transactWord w s <;> rfl

/-- The host's drive plays no part in an atomic step. -/
theorem transact_setInputs {i : Instr} {s u : State} (h : transact i s = .next u) (ps : List PortIn) :
    transact i { s with inputs := ps } = .next { u with inputs := ps } := by
  obtain ⟨t, he, rfl⟩ := transact_cases h
  have he' : exec i { s with inputs := ps } = .next { t with inputs := ps } := by rw [exec_setInputs, he]
  exact transact_of_exec he'

/-- An edge between two idle states changes nothing; what it accepts is a reserved word (R72). -/
theorem atomicRun_of_idle_edge {s t : State} (h : step s = .next t) (hr : s.pins.rst = false) (hb : s.busy = false)
    (ht : t.busy = false) : AtomicRun 1 (acceptedWords 1 s) s t := by
  refine ⟨ticks_succ_of_step h 0, rfl, ?_⟩
  rw [acceptedWords_one h]
  obtain ⟨-, ⟨hr', -⟩ | ⟨-, hb', -⟩ | ⟨-, i, -, he⟩ | ⟨ha, ⟨r, hd⟩, rfl⟩ | ⟨-, -, hv, rfl⟩⟩ := step_cases h
  · simp [hr] at hr'
  · simp [hb] at hb'
  · obtain ⟨-, -, -, -, hbt, -⟩ := exec_frame he
    simp [ht] at hbt
  · rw [if_pos ha, transactWords_singleton, transactWord, hd]
    rfl
  · rw [if_neg (by simp [State.accepts, hv])]
    rfl

section
variable {s t : State} {i : Instr} (ha : s.accepts = true) (hd : decode s.pins.cmdWord = .ok i) (h : step s = .next t)
include ha hd h

/-- During the `T_total` ticks after the acceptance of a legal word the block is busy. -/
theorem busy_after_accept {j : Nat} (hj : j < tTotal t.cfg) (hr : t.noReset j) :
    ∃ u, ticks j t = .next u ∧ u.busy = true := by
  obtain ⟨hw, -⟩ := step_cases h
  have he : exec i s.advancePins = .next t := by rw [← step_eq_exec_of_accepts hw ha hd, h]
  obtain ⟨hcfg, -⟩ := exec_frame he
  obtain ⟨-, hin⟩ := (plays_of_exec (s := s.advancePins) hw he).run
  rw [totalDur_waveform] at hin
  exact ⟨_, ticks_eq_seqTicks (hcfg ▸ hw) hr fun k hk => (hin k (hk.trans hj)).1, (hin j hj).1⟩

/-- From the acceptance of a legal word to the end of its transmission, no other word is accepted. -/
theorem atomicRun_of_accept (hr : t.noReset (tTotal t.cfg)) :
    ∃ u, AtomicRun (1 + tTotal t.cfg) [s.pins.cmdWord] s u ∧ u.busy = false := by
  obtain ⟨hw, -⟩ := step_cases h
  obtain ⟨u, hu, hrun⟩ := tickLevelRefinesTransaction s t i hw ha hd h hr
  have hfirst : ticks 1 s = .next t := ticks_succ_of_step h 0
  have hbusy : ∀ j < tTotal t.cfg, ∃ v, ticks j t = .next v ∧ v.busy = true := fun j hj =>
    busy_after_accept ha hd h hj (noReset_of_le hr hj.le)
  refine ⟨_, ⟨by rw [ticks_add_of_next hfirst, hrun], ?_, ?_⟩, ?_⟩
  · rw [acceptedWords_add hfirst, acceptedWords_one h, if_pos ha, acceptedWords_of_busy hbusy, List.append_nil]
  · rw [transactWords_singleton, transactWord, hd]
    exact transact_setInputs hu []
  · obtain ⟨v, -, rfl⟩ := transact_cases hu
    rfl

end

/-- A run between idle states begins with an idle edge or with the edge that accepts a legal word and its transmission. -/
theorem exists_first_atomicRun {n : Nat} {s t : State} (hb : s.busy = false) (hr : s.noReset (n + 1))
    (h : ticks (n + 1) s = .next t) (ht : t.busy = false) :
    ∃ m ws v, m ≤ n ∧ AtomicRun (1 + m) ws s v ∧ v.busy = false := by
  obtain ⟨u, hsu, hut⟩ := ticks_succ_first h
  obtain ⟨hrst, hrest⟩ := noReset_succ hr
  have hru : u.noReset n := hrest u (step_inputs hsu)
  cases hub : u.busy with
  | false => exact ⟨0, _, u, n.zero_le, atomicRun_of_idle_edge hsu hrst hb hub, hub⟩
  | true =>
    obtain ⟨ha, i, hd⟩ := legal_of_step_starts hsu hrst hb hub
    have hle : tTotal u.cfg ≤ n := by
      by_contra hlt
      obtain ⟨v, hv, hvb⟩ := busy_after_accept ha hd hsu (Nat.lt_of_not_le hlt) hru
      rw [hut] at hv
      cases hv
      simp [ht] at hvb
    obtain ⟨v, hv, hvb⟩ := atomicRun_of_accept ha hd hsu (noReset_of_le hru hle)
    exact ⟨tTotal u.cfg, _, v, hle, hv, hvb⟩

/-- By induction on the number of edges, one idle edge or one whole transmission at a time. -/
theorem atomicRun_of_idle_run {n : Nat} {s t : State} (hb : s.busy = false) (hr : s.noReset n) (h : ticks n s = .next t)
    (ht : t.busy = false) : ∃ ws, AtomicRun n ws s t := by
  induction n using Nat.strong_induction_on generalizing s with
  | _ n ih =>
    cases n with
    | zero => cases h; exact ⟨[], .refl _⟩
    | succ n =>
      obtain ⟨m, vs, v, hm, hv, hvb⟩ := exists_first_atomicRun hb hr h ht
      obtain ⟨k, hk⟩ : ∃ k, n + 1 = 1 + m + k := ⟨n - m, by omega⟩
      rw [hk] at hr h ⊢
      rw [ticks_add_of_next hv.run] at h
      obtain ⟨ws, hws⟩ := ih k (by omega) hvb (noReset_add hr (ticks_inputs hv.run)).2 h
      exact ⟨vs ++ ws, hv.trans hws⟩

/-- Settles O37: the run accepts some words, and its atomic steps are those of the words it accepts. -/
theorem commandsTakeEffectInOrder : Obligations.CommandsTakeEffectInOrder := by
  intro n s t _ hb hr h ht
  obtain ⟨ws, hrun⟩ := atomicRun_of_idle_run hb hr h ht
  rw [hrun.accepted, hrun.atomic]

/-- Settles O38: a status read has a result only in an idle state, where the run is the fold of its words. -/
theorem statusReadSeesFinishedCommands : Obligations.StatusReadSeesFinishedCommands := by
  intro n s t r hi hb hr h hread
  obtain ⟨ht, -⟩ := (statusRead_eq_some_iff t r).1 hread
  exact ⟨_, commandsTakeEffectInOrder n s t hi hb hr h ht, hread⟩

/-! ### A host that waits for `cmd_ready` (R59, R89) -/

theorem wordInputs_rst {c : Config} {w : Byte} {p : PortIn} (hp : p ∈ wordInputs c w) : p.rst = false := by
  rcases List.mem_cons.1 hp with rfl | hp
  · rfl
  · split at hp
    · rw [List.eq_of_mem_replicate hp]; rfl
    · simp at hp

theorem length_wordInputs (c : Config) (w : Byte) :
    (wordInputs c w).length = 1 + if legalWord w = true then tTotal c else 0 := by
  rw [wordInputs, List.length_cons, Nat.add_comm]
  split <;> simp

theorem sequenceInputs_cons (c : Config) (w : Byte) (ws : List Byte) :
    sequenceInputs c (w :: ws) = wordInputs c w ++ sequenceInputs c ws := List.flatMap_cons

theorem length_sequenceInputs (c : Config) (ws : List Byte) :
    (sequenceInputs c ws).length = ws.length + (ws.filter legalWord).length * tTotal c := by
  induction ws with
  | nil => simp [sequenceInputs]
  | cons w ws ih =>
    rw [sequenceInputs_cons, List.length_append, length_wordInputs, ih, List.length_cons, List.filter_cons]
    split
    · rw [List.length_cons]; ring
    · ring

/-- One word offered to an idle block, and the port left undriven until the block is ready again. -/
theorem atomicRun_of_wordInputs {w : Byte} {s : State} {rest : List PortIn} (hi : s.inv) (hb : s.busy = false)
    (hin : s.inputs = wordInputs s.cfg w ++ rest) :
    ∃ t, AtomicRun (wordInputs s.cfg w).length [w] s t ∧ t.busy = false := by
  obtain ⟨u, hsu, -⟩ := stepKeepsInvariant s hi
  obtain ⟨-, hcfg⟩ := step_fanAddr_cfg hsu
  have hpins : s.pins = offer w := by rw [State.pins, hin]; rfl
  have ha : s.accepts = true := by simp [State.accepts, hpins, hb, offer]
  have hr : s.noReset (wordInputs s.cfg w).length := by
    intro p hp
    rw [hin, List.take_left] at hp
    exact wordInputs_rst hp
  rw [length_wordInputs] at hr ⊢
  cases hd : decode w with
  | ok i =>
    rw [if_pos ((legalWord_iff w).2 ⟨i, hd⟩), Nat.add_comm] at hr
    rw [if_pos ((legalWord_iff w).2 ⟨i, hd⟩)]
    have h := atomicRun_of_accept ha (by rw [hpins]; exact hd) hsu (hcfg ▸ (noReset_succ hr).2 u (step_inputs hsu))
    rwa [hcfg, hpins] at h
  | error r =>
    have hl : legalWord w ≠ true := by simp [legalWord, hd]
    rw [if_neg hl, Nat.add_comm] at hr
    rw [if_neg hl]
    obtain ⟨hrst, -⟩ := noReset_succ hr
    have hub : u.busy = false := by
      by_contra hbusy
      obtain ⟨-, hlegal⟩ := legal_of_step_starts hsu hrst hb (by simpa using hbusy)
      rw [hpins] at hlegal
      exact hl ((legalWord_iff w).2 hlegal)
    have h := atomicRun_of_idle_edge hsu hrst hb hub
    rw [acceptedWords_one hsu, if_pos ha, hpins] at h
    exact ⟨u, h, hub⟩

/-- By induction on the sequence, one word at a time. -/
theorem atomicRun_of_sequenceInputs {ws : List Byte} {s : State} (hi : s.inv) (hb : s.busy = false)
    (hin : s.inputs = sequenceInputs s.cfg ws) :
    ∃ t, AtomicRun (sequenceInputs s.cfg ws).length ws s t ∧ t.busy = false := by
  induction ws generalizing s with
  | nil => exact ⟨s, .refl s, hb⟩
  | cons w ws ih =>
    rw [sequenceInputs_cons] at hin ⊢
    obtain ⟨u, hu, hub⟩ := atomicRun_of_wordInputs hi hb hin
    obtain ⟨-, hcfg⟩ := addressAndParametersConstant _ _ _ hu.run
    have huin : u.inputs = sequenceInputs u.cfg ws := by rw [ticks_inputs hu.run, hin, List.drop_left, hcfg]
    obtain ⟨t, ht, htb⟩ := ih (ticks_preserves (fun _ _ => step_inv) hi hu.run) hub huin
    rw [hcfg] at ht
    rw [List.length_append]
    exact ⟨t, hu.trans ht, htb⟩

/-- Settles O39: the run through the whole drive accepts the sequence and leaves its fold, the port undriven after it. -/
theorem commandSequenceCompletes : Obligations.CommandSequenceCompletes := by
  intro ws s hi hb hin
  obtain ⟨t, ht, htb⟩ := atomicRun_of_sequenceInputs hi hb hin
  rw [← hin] at ht
  have htin : t.inputs = [] := by rw [ticks_inputs ht.run, List.drop_length]
  refine ⟨ht.accepted, by rw [hin, length_sequenceInputs], t, ht.run, htb, ?_⟩
  rw [ht.atomic, ← htin]

end Sys2Proof.Machine

namespace Sys2Proof.Machine

/-! ### Letter case and comments (R59) -/

theorem toUpper_of_not_isLower {c : Char} (h : c.isLower = false) : c.toUpper = c := by
  refine dif_neg fun hc => ?_
  simp [Char.isLower, show 97 ≤ c.val ∧ c.val ≤ 122 from hc] at h

/-- The upper case of a small letter is 32 code points below it, among the capital letters. -/
theorem isUpper_toUpper_of_isLower {c : Char} (h : c.isLower = true) : c.toUpper.isUpper = true := by
  have hc : 97 ≤ c.val ∧ c.val ≤ 122 := by simpa [Char.isLower] using h
  have hval : c.toUpper.val = c.val + 4294967264 := by
    rw [Char.toUpper, dif_pos (show 'a'.val ≤ c.val ∧ c.val ≤ 'z'.val from hc)]
    exact congrArg (c.val + ·) (by decide)
  simp only [UInt32.le_iff_toNat_le, UInt32.reduceToNat] at hc
  have hu : 65 ≤ c.toUpper.val ∧ c.toUpper.val ≤ 90 := by
    simp only [hval, UInt32.le_iff_toNat_le, UInt32.toNat_add, UInt32.reduceToNat]
    omega
  simpa [Char.isUpper] using hu

/-- A letter ends no word: it joins the word being read, in upper case. -/
theorem words_cons_of_isAlpha {c : Char} (h : c.isAlpha = true) (word cs : List Char) :
    words word (c :: cs) = words (word ++ [c.toUpper]) cs := by
  have hne (d : Char) (hd : d.isAlpha = false) : (c == d) = false :=
    beq_false_of_ne fun hcd => by simp [hcd, hd] at h
  simp [words, isBlank, hne]

theorem words_cons_toUpper (word : List Char) (c : Char) (cs : List Char) :
    words word (c.toUpper :: cs) = words word (c :: cs) := by
  cases h : c.isLower with
  | false => rw [toUpper_of_not_isLower h]
  | true =>
    have hu := isUpper_toUpper_of_isLower h
    have hl : c.toUpper.isLower = false := by simp [Char.not_isLower_of_isUpper hu]
    rw [words_cons_of_isAlpha (by simp [Char.isAlpha, hu]), words_cons_of_isAlpha (by simp [Char.isAlpha, h]),
      toUpper_of_not_isLower hl]

theorem words_cons_congr {cs ds : List Char} (h : ∀ word, words word cs = words word ds) (word : List Char) (c : Char) :
    words word (c :: cs) = words word (c :: ds) := by
  simp only [words, h]

theorem words_map_toUpper (word line : List Char) : words word (line.map Char.toUpper) = words word line := by
  induction line generalizing word with
  | nil => rfl
  | cons c cs ih => rw [List.map_cons, words_cons_toUpper, words_cons_congr ih]

theorem words_append_comment (word line comment : List Char) :
    words word (line ++ ';' :: comment) = words word line := by
  induction line generalizing word with
  | nil => rfl
  | cons c cs ih => exact words_cons_congr ih word c

/-- Settles O5: by induction on the line, its words are those of the line in upper case and of the line with a comment. -/
theorem assemblerIgnoresCaseAndComment : Obligations.AssemblerIgnoresCaseAndComment := by
  intro line comment
  rw [List.append_assoc, List.singleton_append]
  unfold assembleLine
  rw [words_map_toUpper, words_append_comment]
  exact ⟨rfl, rfl⟩

/-! ### The frames a block can send (R18, R50) -/

theorem frameOf_inj {addr b l b' l' : Byte} : frameOf addr b l = frameOf addr b' l' ↔ b = b' ∧ l = l' := by
  refine ⟨fun h => ⟨?_, ?_⟩, by rintro ⟨rfl, rfl⟩; rfl⟩
  · have hfan (b l : Byte) : (frameOf addr b l).extractLsb' 8 8 = b := by
      rw [frameOf, BitVec.extractLsb'_append_eq_of_le (by omega)]
      exact BitVec.extractLsb'_append_eq_right
    rw [← hfan b l, h, hfan]
  · have hlight (b l : Byte) : (frameOf addr b l).extractLsb' 0 8 = l := BitVec.extractLsb'_append_eq_right
    rw [← hlight b l, h, hlight]

theorem mem_legalFrames (c : Config) (f : Frame) :
    f ∈ legalFrames c ↔ ∃ b ∈ legalFanCtl, f = frameOf c.addr b lightOffByte ∨ f = frameOf c.addr b c.lightOn := by
  simp [legalFrames]

theorem frame_mem_legalFrames {s : State} (h : s.deviceOk) : s.frame ∈ legalFrames s.cfg := by
  obtain ⟨haddr, hfan, hlight, -⟩ := h
  rw [State.frame, haddr]
  exact (mem_legalFrames _ _).2 ⟨s.fanCtl, hfan, hlight.imp (congrArg _) (congrArg _)⟩

theorem length_legalFrames (c : Config) : (legalFrames c).length = 28 := rfl

/-- The light byte on is not the light byte off, so no two of a block's frames are the same. -/
theorem nodup_legalFrames {c : Config} (h : c.lightOn ≠ lightOffByte) : (legalFrames c).Nodup := by
  have hfan : legalFanCtl.Nodup := by decide
  refine List.nodup_flatMap.2 ⟨fun b _ => ?_, hfan.imp fun hb => ?_⟩
  · simp [frameOf_inj, h.symm]
  · simp [Function.onFun, frameOf_inj, hb.symm]

/-- Settles O49: the device part of the invariant makes the frame legal, and the default `LIGHT_ON` is not zero. -/
theorem reachableFrames : Obligations.ReachableFrames :=
  ⟨fun _ ⟨_, hdevice, _⟩ => frame_mem_legalFrames hdevice, length_legalFrames _, nodup_legalFrames (by decide)⟩

/-! ### The opcode map (R48, R56) -/

/-- In a table without two rows of one key, every row is found by its key. -/
theorem lookup_of_mem {α β : Type} [BEq α] [LawfulBEq α] {rows : List (α × β)} (h : (rows.map Prod.fst).Nodup) {a : α}
    {b : β} (hr : (a, b) ∈ rows) : rows.lookup a = some b := by
  obtain ⟨before, after, rfl⟩ := List.append_of_mem hr
  refine List.lookup_eq_some_iff.2 ⟨before, after, rfl, fun r hmem => bne_iff_ne.2 ?_⟩
  rintro rfl
  rw [List.map_append, List.map_cons] at h
  exact List.disjoint_of_nodup_append h (List.mem_map_of_mem hmem) List.mem_cons_self

theorem decode_eq_ok_iff (w : Byte) (i : Instr) : decode w = .ok i ↔ (w, i) ∈ opcodeRows := by
  refine ⟨mem_opcodeRows_of_decode, fun h => ?_⟩
  rw [decode, lookup_of_mem (by decide) h]

/-- Settles O1: the twelve rows are the decoder's table. -/
theorem decodeMatchesOpcodeMap : Obligations.DecodeMatchesOpcodeMap := decode_eq_ok_iff

open Laws.EncodeFields in
theorem encode_fields : ∀ i : Instr, Statement i
  | .speedOff => speedOff
  | .speed1 => speed1
  | .speed2 => speed2
  | .speed3 => speed3
  | .speed4 => speed4
  | .speed5 => speed5
  | .speed6 => speed6
  | .speedOn => speedOn
  | .dirLeft => dirLeft
  | .dirRight => dirRight
  | .lightOff => lightOff
  | .lightOn => lightOn

theorem encode_of_decode {w : Byte} {i : Instr} (h : decode w = .ok i) : encode i = w := by
  have hrows : ∀ r ∈ opcodeRows, encode r.2 = r.1 := by decide
  exact hrows (w, i) (mem_opcodeRows_of_decode h)

/-- Settles O3, from the laws of each command's word and the rows of the opcode map. -/
theorem encodeDecodeRoundTrip : Obligations.EncodeDecodeRoundTrip := by
  refine ⟨fun i _ => ?_, fun _ _ => encode_of_decode⟩
  obtain ⟨-, hfields⟩ := encode_fields i
  exact ⟨decode_encode i, hfields⟩

/-! ### Reserved words (R57) -/

/-- A command word is legal exactly when its fields are those of an operation with one of its arguments (R48, R53 to R55). -/
theorem legalWord_iff_fields (w : Byte) :
    legalWord w = true ↔
      zField w = 0 ∧ (opField w = 1 ∨ (opField w = 2 ∨ opField w = 3) ∧ w.extractLsb' 1 2 = 0) := by
  revert w
  decide

theorem decode_eq_error_iff (w : Byte) (r : Reserved) :
    decode w = .error r ↔ ¬ legalWord w = true ∧ reservedReason w = r := by
  unfold legalWord decode
  cases opcodeRows.lookup w <;> simp

theorem mem_legal_ops_iff (o : BitVec 4) : o ∈ [1#4, 2#4, 3#4] ↔ ¬ (o ≠ 1 ∧ o ≠ 2 ∧ o ≠ 3) := by
  revert o
  decide

theorem reservedReason_eq (w : Byte) :
    reservedReason w = if opField w ∈ [1#4, 2#4, 3#4] then (if zField w = 1 then .z else .arg) else .op := by
  simp only [reservedReason, mem_legal_ops_iff, ite_not]

/-- The numbers of the legal words are those of the twelve rows. -/
theorem legalNumbers_perm :
    ((List.range 256).filter fun n => legalWord (BitVec.ofNat 8 n)).Perm (opcodeRows.map fun r => r.1.toNat) := by
  refine (List.perm_ext_iff_of_nodup (List.nodup_range.filter _) (by decide)).2 fun n => ?_
  simp only [List.mem_filter, List.mem_range, List.mem_map, legalWord_iff, decode_eq_ok_iff]
  constructor
  · rintro ⟨hn, i, hi⟩
    exact ⟨_, hi, BitVec.toNat_ofNat _ _ ▸ Nat.mod_eq_of_lt hn⟩
  · rintro ⟨⟨w, i⟩, hi, rfl⟩
    exact ⟨w.isLt, i, by rwa [BitVec.ofNat_toNat, BitVec.setWidth_eq]⟩

theorem length_reservedNumbers : ((List.range 256).filter fun n => !legalWord (BitVec.ofNat 8 n)).length = 244 := by
  have hlegal := legalNumbers_perm.length_eq
  have hall := List.length_eq_length_filter_add (l := List.range 256) fun n => legalWord (BitVec.ofNat 8 n)
  rw [List.length_map, show opcodeRows.length = 12 from rfl] at hlegal
  rw [List.length_range, hlegal] at hall
  omega

/-- Settles O2: a word that is not legal falls under the first of the three grounds that its fields meet. -/
theorem reservedWordsRejectedByGround : Obligations.ReservedWordsRejectedByGround := by
  refine ⟨fun w => ?_, length_reservedNumbers⟩
  simp only [decode_eq_error_iff, legalWord_iff_fields, reservedReason_eq]
  by_cases hop : opField w ∈ [1#4, 2#4, 3#4]
  · rcases BitVec.eq_zero_or_eq_one (zField w) with hz | hz
    · simp only [List.mem_cons, List.not_mem_nil, or_false] at hop
      rcases hop with hop | hop | hop <;> simp [hop, hz]
    · simp [hop, hz]
  · simp_all

/-! ### The text of a command (R59, R60) -/

/-- No two spellings have the same words, so each stands for its own command. -/
theorem assembleLine_of_mem {line : List Char} {i : Instr} (h : (line, i) ∈ spellings) : assembleLine line = some i := by
  have hkeys : (spellingWords.map Prod.fst).Nodup := by decide
  exact lookup_of_mem hkeys (List.mem_map_of_mem (f := fun p : List Char × Instr => (words [] p.1, p.2)) h)

theorem instr_mem_all (i : Instr) : i ∈ Instr.all := by cases i <;> decide

theorem assembleLine_commandText (i : Instr) : assembleLine (commandText i) = some i := by
  refine assembleLine_of_mem (List.mem_append_left _ (List.mem_append_left _ ?_))
  exact List.mem_map_of_mem (f := fun i => (commandText i, i)) (instr_mem_all i)

theorem assembleLine_setterCallText (i : Instr) : assembleLine (setterCallText i) = some i := by
  refine assembleLine_of_mem (List.mem_append_left _ (List.mem_append_right _ ?_))
  exact List.mem_map_of_mem (f := fun i => (setterCallText i, i)) (instr_mem_all i)

theorem assembleLine_of_pseudo {line : List Char} {i : Instr} (h : (line, i) ∈ pseudoRows) : assembleLine line = some i :=
  assembleLine_of_mem (List.mem_append_right _ h)

/-- The digits of a listing are those of the word as a number. -/
theorem listingLine_eq (i : Instr) :
    listingLine i =
      [['0', '1', '2', '3', '4', '5', '6', '7', '8', '9', 'A', 'B', 'C', 'D', 'E', 'F'].getD ((encode i).toNat / 16) ' ',
        ['0', '1', '2', '3', '4', '5', '6', '7', '8', '9', 'A', 'B', 'C', 'D', 'E', 'F'].getD ((encode i).toNat % 16) ' ',
        ' ', ' '] ++ commandText i := by
  cases i <;> rfl

/-- A command with the two digits of its word, its text and its call. -/
def textRow (i : Instr) : Instr × Char × Char × List Char × List Char :=
  (i, hexDigit ((encode i).extractLsb' 4 4), hexDigit ((encode i).extractLsb' 0 4), commandText i, setterCallText i)

/-- Settles O4: the table's rows are `textRow` of the twelve commands, and R60's lines are rows of `pseudoRows`. -/
theorem assemblerSpellings : Obligations.AssemblerSpellings := by
  refine ⟨fun r hr => ?_, fun i => ⟨assembleLine_commandText i, assembleLine_setterCallText i⟩, listingLine_eq,
    assembleLine_of_pseudo (by decide), assembleLine_of_pseudo (by decide), assembleLine_of_pseudo (by decide),
    assembleLine_of_pseudo (by decide), rfl⟩
  obtain ⟨i, -, rfl⟩ := List.mem_map.1 (show r ∈ Instr.all.map textRow from hr)
  exact ⟨assembleLine_commandText i, assembleLine_setterCallText i, rfl, rfl, rfl⟩

end Sys2Proof.Machine

namespace Sys2Proof.Machine

/-! ### The two nibbles of `FANCTL` (R15, R20) -/

theorem dirField_append_spdField (b : Byte) : dirField b ++ spdField b = b := by revert b; decide

/-- Only the direction of the byte that was there counts. -/
theorem withSpeed_eq_append (b : Byte) (n : Speed) : withSpeed b n = dirField b ++ n.zeroExtend 4 := by
  rw [← dirField_append_spdField (withSpeed b n), dirField_withSpeed, spdField_withSpeed]

theorem withSpeed_eq_self {b : Byte} {n : Speed} (h : spdField b = n.zeroExtend 4) : withSpeed b n = b := by
  rw [withSpeed_eq_append, ← h, dirField_append_spdField]

theorem withSpeed_zero (b : Byte) : withSpeed b 0 = b &&& 0xF0#8 := BitVec.or_zero

theorem withDir_left (b : Byte) : withDir b (dirPattern 0) = b &&& 0x0F#8 := BitVec.or_zero

theorem withDir_right (b : Byte) : withDir b (dirPattern 1) = (b &&& 0x0F#8) ||| 0x20#8 := rfl

/-- `DIRF` is bit 1 of the direction nibble. -/
theorem getLsbD_five_eq (b : Byte) : b.getLsbD 5 = (dirField b).getLsbD 1 := by simp [dirField]

theorem getLsbD_five_withSpeed (b : Byte) (n : Speed) : (withSpeed b n).getLsbD 5 = b.getLsbD 5 := by
  rw [getLsbD_five_eq, dirField_withSpeed, ← getLsbD_five_eq]

theorem getLsbD_five_withDir_left (b : Byte) : (withDir b (dirPattern 0)).getLsbD 5 = false := by
  rw [getLsbD_five_eq, dirField_withDir_left]
  rfl

theorem getLsbD_five_withDir_right (b : Byte) : (withDir b (dirPattern 1)).getLsbD 5 = true := by
  rw [getLsbD_five_eq, dirField_withDir_right]
  rfl

/-- 7 is never persisted (R15). -/
theorem zeroExtend_ne_seven {n : Speed} (h : concreteLevel n = true) : n.zeroExtend 4 ≠ 7#4 := by revert n; decide

/-! ### A command's result at the two levels (R61, R82, R86) -/

/-- A command that answers changes the registers it writes, starts the sequencer, and changes nothing else. -/
theorem exec_eq_started {i : Instr} {s t : State} (h : exec i s = .next t) :
    t = { s.started t.fanCtl t.lightCtl t.lastSpd with trace := s.trace ++ [⟨.low, tShort⟩] } := by
  obtain ⟨hcfg, ha, hin, hpast, hb, hx, hr, hk, hh, hc, htr⟩ := exec_frame h
  cases t
  simp_all [State.started, tShort]

theorem transact_eq_sent {i : Instr} {s t : State} (h : exec i s = .next t) :
    transact i s = .next (s.sent t.fanCtl t.lightCtl t.lastSpd) := by
  rw [transact_of_exec h, exec_eq_started h]
  rfl

/-- Both levels written out from the registers the command leaves. -/
theorem exec_transact_of_registers {i : Instr} {s t : State} {f l : Byte} {n : Speed} (h : exec i s = .next t)
    (hf : t.fanCtl = f) (hl : t.lightCtl = l) (hn : t.lastSpd = n) :
    (∃ tr, exec i s = .next { s.started f l n with trace := tr }) ∧ transact i s = .next (s.sent f l n) := by
  subst hf hl hn
  exact ⟨⟨_, h.trans (congrArg _ (exec_eq_started h))⟩, transact_eq_sent h⟩

theorem encode_of_levelRow {i : Instr} {n : Speed} (h : (i, n) ∈ levelRows) :
    encode i = 0x10#8 ||| n.zeroExtend 8 ∧ i ≠ .speedOn := by
  have hrows : ∀ r ∈ levelRows, encode r.1 = 0x10#8 ||| r.2.zeroExtend 8 ∧ r.1 ≠ .speedOn := by decide
  exact hrows (i, n) h

/-- Settles O12: the registers SPEED 1 to SPEED 6 leave, at both levels. -/
theorem speedLevelResult : Obligations.SpeedLevelResult := by
  intro i n s hi
  have hrow : (i, n) ∈ levelRows := hi
  obtain ⟨henc, hne⟩ := encode_of_levelRow hrow
  obtain ⟨hspeed, hoff, -⟩ := of_mem_levelRows hrow
  obtain ⟨t, ht⟩ := exec_answers (s := s) (.inl hne)
  obtain ⟨hf, hl⟩ := exec_speed ht hspeed
  have hn := exec_lastSpd_of_level ht hrow
  rw [if_neg hoff, hn] at hf
  obtain ⟨he, htr⟩ := exec_transact_of_registers ht hf hl hn
  exact ⟨henc, he, htr, getLsbD_five_withSpeed _ _⟩

/-- Settles O14: SPEED OFF resolves to 0, whose nibble adds no bit. -/
theorem speedOffResult : Obligations.SpeedOffResult := by
  intro s
  obtain ⟨t, ht⟩ := exec_answers (s := s) (i := .speedOff) (.inl (by decide))
  obtain ⟨hf, hl⟩ := exec_speed ht (by decide)
  rw [if_pos rfl] at hf
  obtain ⟨he, htr⟩ := exec_transact_of_registers ht hf hl (exec_lastSpd ht)
  rw [← withSpeed_zero]
  exact ⟨rfl, he, htr, getLsbD_five_withSpeed _ _⟩

/-- Settles O15: the pattern of LEFT adds no bit. -/
theorem dirLeftResult : Obligations.DirLeftResult := by
  intro s
  obtain ⟨t, ht⟩ := exec_answers (s := s) (i := .dirLeft) (.inl (by decide))
  obtain ⟨hf, hl⟩ := exec_dir ht (.inl rfl)
  obtain ⟨he, htr⟩ := exec_transact_of_registers ht hf hl (exec_lastSpd ht)
  rw [← withDir_left]
  exact ⟨rfl, he, htr, getLsbD_five_withDir_left _⟩

/-- Settles O16: the pattern of RIGHT is 0x20. -/
theorem dirRightResult : Obligations.DirRightResult := by
  intro s
  obtain ⟨t, ht⟩ := exec_answers (s := s) (i := .dirRight) (.inl (by decide))
  obtain ⟨hf, hl⟩ := exec_dir ht (.inr rfl)
  obtain ⟨he, htr⟩ := exec_transact_of_registers ht hf hl (exec_lastSpd ht)
  rw [← withDir_right]
  exact ⟨rfl, he, htr, getLsbD_five_withDir_right _⟩

/-- Settles O17: the light byte of OFF is 0. -/
theorem lightOffResult : Obligations.LightOffResult := by
  intro s
  obtain ⟨t, ht⟩ := exec_answers (s := s) (i := .lightOff) (.inl (by decide))
  obtain ⟨hf, hl⟩ := exec_light ht (.inl rfl)
  obtain ⟨he, htr⟩ := exec_transact_of_registers ht hf hl (exec_lastSpd ht)
  exact ⟨rfl, he, htr, rfl⟩

/-- Settles O18: the light byte of ON is the parameter, which R6 keeps from being 0. -/
theorem lightOnResult : Obligations.LightOnResult := by
  intro s
  have hflag : s.cfg.wf = true → (s.started s.fanCtl s.cfg.lightOn s.lastSpd).lightFlag = true := fun hw =>
    (lightFlag_eq_true_iff (s := s.started s.fanCtl s.cfg.lightOn s.lastSpd) hw (.inr rfl)).2 rfl
  obtain ⟨t, ht⟩ := exec_answers (s := s) (i := .lightOn) (.inl (by decide))
  obtain ⟨hf, hl⟩ := exec_light ht (.inr rfl)
  obtain ⟨he, htr⟩ := exec_transact_of_registers ht hf hl (exec_lastSpd ht)
  exact ⟨rfl, he, htr, hflag⟩

theorem transact_sameDevice {i : Instr} {s t u : State} (ht : exec i s = .next t) (hu : transact i s = .next u) :
    sameDevice t u := by
  rw [transact_of_exec ht] at hu
  cases hu
  exact ⟨rfl, rfl, rfl, rfl⟩

/-- The trace grows by the waveform of the registers the command leaves (R69 g, h). -/
theorem transact_trace {i : Instr} {s u : State} (hu : transact i s = .next u) :
    u.trace = s.trace ++ waveform s.cfg (frameOf u.fanAddr u.fanCtl u.lightCtl) := by
  obtain ⟨t, ht, rfl⟩ := transact_cases hu
  rw [State.transmitted_trace, (exec_frame ht).1]
  rfl

/-- Settles O21, from what every command sets whichever it is. -/
theorem everyCommandTransmits : Obligations.EveryCommandTransmits := by
  intro i s t u ht hu
  obtain ⟨-, -, -, -, hb, hx, hr, hk, hh, hc, -⟩ := exec_frame ht
  obtain ⟨v, -, rfl⟩ := transact_cases hu
  exact ⟨transact_trace hu, transact_sameDevice ht hu, rfl, hb, hr, hk, hh, hc, hx⟩

/-! ### A reserved word and the status port (R71, R72) -/

/-- Settles O8: the edge moves the host's drive on and the atomic step does nothing. -/
theorem reservedWordHasNoEffect : Obligations.ReservedWordHasNoEffect := by
  intro s r hw ha hd
  refine ⟨?_, ?_⟩
  · rw [step_accept hw ha, executeWord, hd]
    rfl
  · rw [transactWord, hd]

/-- Settles O45: the two branches of the status read, by `BUSY`. -/
theorem statusReadResult : Obligations.StatusReadResult := by
  refine fun s => ⟨fun hb => (statusRead_eq_some_iff s _).2 ⟨hb, rfl⟩, fun hb => ?_, ?_⟩
  · simp [State.statusRead, hb]
  · simp [State.outputs]

/-! ### Sequences of commands (R69 a, b, d, f) -/

theorem transactAll_cons {i : Instr} {s t : State} (h : transact i s = .next t) (is : List Instr) :
    transactAll (i :: is) s = transactAll is t := by
  rw [transactAll, h]

theorem transactAll_singleton (i : Instr) (s : State) : transactAll [i] s = transact i s := by
  simp only [transactAll]
  cases transact i s <;> rfl

/-- Settles O22: LIGHT OFF touches neither the parameters nor what LIGHT ON keeps. -/
theorem lightOffThenOn : Obligations.LightOffThenOn := by
  intro s
  obtain ⟨-, -, hoff, -⟩ := lightOffResult s
  obtain ⟨-, -, hon, -⟩ := lightOnResult (s.sent s.fanCtl 0x00#8 s.lastSpd)
  exact ⟨_, (transactAll_cons hoff _).trans ((transactAll_singleton _ _).trans hon), rfl, rfl, rfl⟩

theorem transactAll_append_of_next {xs : List Instr} {s t : State} (h : transactAll xs s = .next t) (ys : List Instr) :
    transactAll (xs ++ ys) s = transactAll ys t := by
  rw [transactAll_append, h]

/-- What every command of the list keeps holds after the list. -/
theorem transactAll_preserves {P : State → Prop} {is : List Instr} {s t : State}
    (hstep : ∀ i ∈ is, ∀ u v, P u → transact i u = .next v → P v) (hs : P s) (h : transactAll is s = .next t) : P t := by
  induction is generalizing s with
  | nil => cases h; exact hs
  | cons i is ih =>
    obtain ⟨hi, his⟩ := List.forall_mem_cons.1 hstep
    rw [transactAll] at h
    split at h
    next u hu => exact ih his (hi s u hs hu) h
    next => cases h
    next => cases h

/-- A list of commands answers from a concrete remembered level, and remembers its last one (R17, R69 f). -/
theorem transactAll_answers (is : List Instr) {s : State} (h : concreteLevel s.lastSpd = true) :
    ∃ t, transactAll is s = .next t ∧ t.lastSpd = resumeLevel is s.lastSpd := by
  induction is generalizing s with
  | nil => exact ⟨s, rfl, rfl⟩
  | cons i is ih =>
    obtain ⟨t, ht⟩ := exec_answers (i := i) (.inr h)
    have hn : (t.transmitted s.trace).lastSpd = rememberedLevel i s.lastSpd :=
      (State.transmitted_lastSpd _ _).trans (exec_lastSpd ht)
    obtain ⟨u, hu, hlast⟩ := ih (hn ▸ concreteLevel_rememberedLevel i h)
    exact ⟨u, by rw [transactAll_cons (transact_of_exec ht), hu], by rw [hlast, hn, resumeLevel_cons]⟩

theorem concreteLevel_resumeLevel (is : List Instr) {n : Speed} (h : concreteLevel n = true) :
    concreteLevel (resumeLevel is n) = true := by
  induction is generalizing n with
  | nil => exact h
  | cons i is ih => exact ih (concreteLevel_rememberedLevel i h)

/-- SPEED ON gives the speed nibble the level in `LASTSPD` (R63). -/
theorem exec_transact_speedOn {s : State} (h : concreteLevel s.lastSpd = true) :
    (∃ tr, exec .speedOn s =
      .next { s.started (withSpeed s.fanCtl s.lastSpd) s.lightCtl s.lastSpd with trace := tr }) ∧
    transact .speedOn s = .next (s.sent (withSpeed s.fanCtl s.lastSpd) s.lightCtl s.lastSpd) := by
  obtain ⟨t, ht⟩ := exec_answers (i := .speedOn) (.inr h)
  have hn : t.lastSpd = s.lastSpd := exec_lastSpd ht
  obtain ⟨hf, hl⟩ := exec_speed ht (by decide)
  rw [if_neg (by decide), hn] at hf
  exact exec_transact_of_registers ht hf hl hn

/-- R69 a: SPEED ON after a list of commands resolves to the level the list leaves. -/
theorem speedOn_after (is : List Instr) {s : State} (h : concreteLevel s.lastSpd = true) :
    ∃ t, transactAll (is ++ [.speedOn]) s = .next t ∧
      spdField t.fanCtl = (resumeLevel is s.lastSpd).zeroExtend 4 ∧ t.lastSpd = resumeLevel is s.lastSpd := by
  obtain ⟨u, hu, hn⟩ := transactAll_answers is h
  have hc : concreteLevel u.lastSpd = true := hn ▸ concreteLevel_resumeLevel is h
  obtain ⟨-, hon⟩ := exec_transact_speedOn hc
  have hrun := (transactAll_append_of_next hu [.speedOn]).trans ((transactAll_singleton _ _).trans hon)
  refine ⟨_, hrun, ?_, hn⟩
  rw [← hn]
  exact spdField_withSpeed _ _

/-- R69 f along a list. -/
theorem resumeLevel_of_nonLevel {is : List Instr} (h : ∀ x ∈ is, x ∈ nonLevelCommands) (n : Speed) :
    resumeLevel is n = n := by
  induction is with
  | nil => rfl
  | cons i is ih =>
    obtain ⟨hi, his⟩ := List.forall_mem_cons.1 h
    rw [resumeLevel_cons, rememberedLevel_of_nonLevel hi, ih his]

theorem resumeLevel_of_last_level (before : List Instr) {after : List Instr} {i : Instr} {n : Speed} (m : Speed)
    (hi : (i, n) ∈ levelRows) (h : ∀ x ∈ after, x ∈ nonLevelCommands) : resumeLevel (before ++ [i] ++ after) m = n := by
  obtain ⟨-, -, hn⟩ := of_mem_levelRows hi
  rw [resumeLevel_append, resumeLevel_append, resumeLevel_of_nonLevel h, resumeLevel_cons, resumeLevel_nil, hn]

theorem concreteLevel_of_levelRow {i : Instr} {n : Speed} (h : (i, n) ∈ levelRows) : concreteLevel n = true := by
  have hrows : ∀ r ∈ levelRows, concreteLevel r.2 = true := by decide
  exact hrows (i, n) h

/-- Settles O23: the level command answers whatever `LASTSPD` holds, and the rest of the list starts from its level. -/
theorem resumeLastLevel : Obligations.ResumeLastLevel := by
  intro i n between s hi hbetween
  obtain ⟨-, -, hlevel, -⟩ := speedLevelResult i n s hi
  obtain ⟨u, hu, hn⟩ : ∃ u, transact i s = .next u ∧ u.lastSpd = n := ⟨_, hlevel, rfl⟩
  obtain ⟨t, ht, hspd, hlast⟩ := speedOn_after between (hn ▸ concreteLevel_of_levelRow hi)
  rw [resumeLevel_of_nonLevel hbetween, hn] at hspd hlast
  exact ⟨t, by rw [List.append_assoc, List.singleton_append, transactAll_cons hu, ht], hspd, hlast⟩

/-- Settles O24: the reset value of `LASTSPD` is level 1. -/
theorem resumeDefaultLevel : Obligations.ResumeDefaultLevel := by
  intro c before hbefore
  obtain ⟨t, ht, hspd, -⟩ := speedOn_after before (s := State.resetWith c) rfl
  rw [resumeLevel_of_nonLevel hbefore] at hspd
  exact ⟨t, ht, hspd⟩

theorem transact_dirField {i : Instr} {s t : State} (h : transact i s = .next t) (hi : i ∈ speedCommands) :
    dirField t.fanCtl = dirField s.fanCtl := by
  obtain ⟨u, hu, rfl⟩ := transact_cases h
  rw [State.transmitted_fanCtl, (exec_speed hu hi).1, dirField_withSpeed]

/-- Repeated SPEED OFF leaves both things SPEED ON reads: the direction and `LASTSPD` (R63). -/
theorem speedOn_after_speedOffs (k : Nat) {s : State} (h : concreteLevel s.lastSpd = true) :
    ∃ t, transactAll (List.replicate k .speedOff ++ [.speedOn]) s = .next t ∧
      t.fanCtl = withSpeed s.fanCtl s.lastSpd ∧ t.lastSpd = s.lastSpd := by
  obtain ⟨t, ht, hspd, hlast⟩ := speedOn_after (List.replicate k .speedOff) h
  have hoff : ∀ x ∈ List.replicate k Instr.speedOff, x ∈ nonLevelCommands := fun x hx => by
    rw [List.eq_of_mem_replicate hx]; decide
  have hspeed : ∀ x ∈ List.replicate k Instr.speedOff ++ [.speedOn], x ∈ speedCommands := fun x hx => by
    rcases List.mem_append.1 hx with hx | hx
    · rw [List.eq_of_mem_replicate hx]; decide
    · rw [List.mem_singleton.1 hx]; decide
  have hdir : dirField t.fanCtl = dirField s.fanCtl :=
    transactAll_preserves (P := fun u => dirField u.fanCtl = dirField s.fanCtl)
      (fun i hi u v hu huv => (transact_dirField huv (hspeed i hi)).trans hu) rfl ht
  rw [resumeLevel_of_nonLevel hoff] at hspd hlast
  refine ⟨t, ht, ?_, hlast⟩
  rw [withSpeed_eq_append, ← hdir, ← hspd, dirField_append_spdField]

/-- Settles O13: the registers SPEED ON leaves at both levels, and the two nibbles of the byte. -/
theorem speedOnResult : Obligations.SpeedOnResult := by
  intro s h₁ h₆
  have hc : concreteLevel s.lastSpd = true := decide_eq_true ⟨h₁, h₆⟩
  obtain ⟨he, htr⟩ := exec_transact_speedOn hc
  have hspd : spdField (withSpeed s.fanCtl s.lastSpd) = s.lastSpd.zeroExtend 4 := spdField_withSpeed _ _
  refine ⟨rfl, he, htr, hspd.trans_ne (zeroExtend_ne_seven hc), fun hreset => ?_, withSpeed_eq_self,
    getLsbD_five_withSpeed _ _, fun k => speedOn_after_speedOffs k hc⟩
  exact hspd.trans (by rw [hreset]; rfl)

/-! ### The laws of the command set (R69) -/

theorem repeats_eq_flatMap (c : Config) (f : Frame) (n : Nat) :
    repeats c f n = (List.range n).flatMap (repeatSegments c f) := by
  induction n with
  | zero => rfl
  | succ n ih => rw [repeats, ih, List.range_succ, List.flatMap_append, List.flatMap_singleton]

theorem level_or_nonLevel (i : Instr) : (∃ n, (i, n) ∈ levelRows) ∨ i ∈ nonLevelCommands := by
  cases i <;> decide

/-- R69 f: `LASTSPD` changes under SPEED 1 to SPEED 6 alone. -/
theorem exec_lastSpd_cases {i : Instr} {s t : State} (h : exec i s = .next t) :
    (∃ n, (i, n) ∈ levelRows ∧ t.lastSpd = n) ∨ i ∈ nonLevelCommands ∧ t.lastSpd = s.lastSpd := by
  rcases level_or_nonLevel i with ⟨n, hi⟩ | hi
  · exact .inl ⟨n, hi, exec_lastSpd_of_level h hi⟩
  · exact .inr ⟨hi, exec_lastSpd_of_nonLevel h hi⟩

/-- Settles O55: R69 a, b, d on lists of commands, and c, e to i for one command at both levels. -/
theorem commandSetLaws : Obligations.CommandSetLaws := by
  refine ⟨fun is _ => speedOn_after is, fun before _ _ _ m hi hafter =>
    ⟨resumeLevel_of_last_level before m hi hafter, resumeLevel_of_nonLevel hafter m⟩, resumeDefaultLevel, fun s => ?_,
    fun i s t u ht hu => ⟨transact_sameDevice ht hu, fun hi => ?_, fun hi => ?_, fun hi => ?_, fun hi => ?_,
      exec_lastSpd_cases ht, ?_, fun hs => ?_⟩⟩
  · obtain ⟨t, ht, hlight, -⟩ := lightOffThenOn s
    exact ⟨t, ht, hlight⟩
  · rw [(exec_dir ht hi).1, spdField_withDir]
  · rw [(exec_speed ht hi).1, dirField_withSpeed]
  · refine ⟨(exec_light ht hi).1, exec_lastSpd_of_nonLevel ht ?_⟩
    rcases hi with rfl | rfl <;> decide
  · rcases hi with hi | hi
    · exact (exec_speed ht hi).2
    · exact (exec_dir ht hi).2
  · rw [transact_trace hu, waveform, repeats_eq_flatMap]
    rfl
  · have hdev := exec_deviceOk ht hs
    obtain ⟨v, hv, rfl⟩ := transact_cases hu
    cases ht.symm.trans hv
    exact ⟨hdev, hdev⟩

/-! ### A running fan's speed (R63 b) -/

/-- A running fan's speed nibble is `LASTSPD`. -/
def State.speedRemembered (s : State) : Prop := spdField s.fanCtl ≠ 0#4 → spdField s.fanCtl = s.lastSpd.zeroExtend 4

/-- SPEED OFF stops the fan, the other SPEED commands store what they leave in `LASTSPD`, DIR and LIGHT keep both. -/
theorem exec_speedRemembered {i : Instr} {s t : State} (h : exec i s = .next t) (hs : s.speedRemembered) :
    t.speedRemembered := by
  rcases command_families i with hi | hi | hi
  · by_cases hoff : i = .speedOff
    · have h0 : spdField t.fanCtl = 0#4 := by rw [(exec_speed h hi).1, if_pos hoff, spdField_withSpeed]; rfl
      exact fun hne => absurd h0 hne
    · exact fun _ => exec_spdField_of_resolved h hi hoff
  · have hn : t.lastSpd = s.lastSpd := exec_lastSpd_of_nonLevel h (by rcases hi with rfl | rfl <;> decide)
    unfold State.speedRemembered
    rwa [(exec_dir h hi).1, spdField_withDir, hn]
  · have hn : t.lastSpd = s.lastSpd := exec_lastSpd_of_nonLevel h (by rcases hi with rfl | rfl <;> decide)
    unfold State.speedRemembered
    rwa [(exec_light h hi).1, hn]

/-- Settles O50, by the cases of a step. -/
theorem runningSpeedIsRemembered : Obligations.RunningSpeedIsRemembered := by
  intro s t _ hs h
  have hadv : s.advancePins.speedRemembered := hs
  show t.speedRemembered
  obtain ⟨-, ⟨-, rfl⟩ | ⟨-, -, rfl⟩ | ⟨-, i, -, he⟩ | ⟨-, -, rfl⟩ | ⟨-, -, -, rfl⟩⟩ := step_cases h
  · exact fun hne => absurd rfl hne
  · obtain ⟨-, -, hf, -, hn, -⟩ := seqTick_frame s.advancePins
    unfold State.speedRemembered
    rwa [hf, hn]
  · exact exec_speedRemembered he hadv
  · exact hadv
  · exact hadv

end Sys2Proof.Machine

namespace Sys2Proof.Machine

/-! ### The line of a running transmission (R82, R92) -/

theorem Plays.dur_pos {w : List Segment} {s t : State} (h : Plays w s t) : ∀ g ∈ w, 1 ≤ g.dur := by
  induction w generalizing s with
  | nil => simp
  | cons g w ih =>
    obtain ⟨-, -, -, hd, hp⟩ := h
    exact List.forall_mem_cons.2 ⟨hd, ih hp⟩

/-- A run of the block inside a list of segments it has started to play: busy, the device registers still, the line at the
level of the sample. -/
theorem Plays.ticks_inside {w : List Segment} {s t : State} (h : Plays w s t) (hw : s.cfg.wf = true)
    (hr : s.noReset (totalDur w)) {j : Nat} (hj : j < totalDur w) :
    ∃ u, ticks j s = .next u ∧ u.busy = true ∧ sameDevice s u ∧ (samples w)[j]? = some u.tx := by
  obtain ⟨-, hin⟩ := h.run
  obtain ⟨hb, hx⟩ := hin j hj
  obtain ⟨-, -, hdev⟩ := seqTicks_frame j s
  exact ⟨_, ticks_eq_seqTicks hw (noReset_of_le hr hj.le) fun k hk => (hin k (hk.trans hj)).1, hb, hdev, hx⟩

/-- The line over a run is any list of levels that agrees with it edge by edge. -/
theorem lineOver_eq {ls : List Level} {s v : State} (hend : ticks ls.length s = .next v)
    (h : ∀ j < ls.length, ∃ u, ticks j s = .next u ∧ ls[j]? = some u.tx) : lineOver ls.length s = ls := by
  induction ls generalizing s with
  | nil => rfl
  | cons l ls ih =>
    obtain ⟨t, hst, htv⟩ := ticks_succ_first hend
    obtain ⟨u, hu, hl⟩ := h 0 (Nat.succ_pos _)
    cases hu
    cases hl
    have htail : lineOver ls.length t = ls := ih htv fun j hj => by
      obtain ⟨u, hu, hl⟩ := h (j + 1) (Nat.succ_lt_succ hj)
      exact ⟨u, by rwa [← ticks_succ_of_step hst], hl⟩
    rw [List.length_cons, lineOver, hst]
    exact congrArg _ htail

theorem Plays.lineOver_eq_samples {w : List Segment} {s t : State} (h : Plays w s t) (hw : s.cfg.wf = true)
    (hr : s.noReset (totalDur w)) : lineOver (totalDur w) s = samples w := by
  rw [← length_samples w]
  refine lineOver_eq (by rw [length_samples]; exact h.ticks_eq hw hr) fun j hj => ?_
  obtain ⟨u, hu, -, -, hx⟩ := h.ticks_inside hw hr (length_samples w ▸ hj)
  exact ⟨u, hu, hx⟩

theorem plays_of_accept {s t : State} {i : Instr} (ha : s.accepts = true) (hd : decode s.pins.cmdWord = .ok i)
    (h : step s = .next t) :
    t.cfg.wf = true ∧ Plays (waveform t.cfg t.frame) t (t.transmitted s.trace) := by
  obtain ⟨hw, -⟩ := step_cases h
  have he : exec i s.advancePins = .next t := by rw [← step_eq_exec_of_accepts hw ha hd, h]
  obtain ⟨hcfg, -⟩ := exec_frame he
  exact ⟨hcfg ▸ hw, plays_of_exec (s := s.advancePins) hw he⟩

/-- The block after the edge that ends the transmission of an accepted command. -/
theorem ticks_tTotal_of_accept {s t : State} {i : Instr} (ha : s.accepts = true) (hd : decode s.pins.cmdWord = .ok i)
    (h : step s = .next t) (hr : t.noReset (tTotal t.cfg)) :
    ticks (tTotal t.cfg) t = .next { t.transmitted s.trace with inputs := t.inputs.drop (tTotal t.cfg) } := by
  obtain ⟨hw, hp⟩ := plays_of_accept ha hd h
  rw [← totalDur_waveform t.cfg t.frame] at hr ⊢
  exact hp.ticks_eq hw hr

/-- Settles O34: the accepted command plays the waveform of the new registers' frame, whose samples are the levels of the
line edge by edge. -/
theorem lineFollowsWaveform : Obligations.LineFollowsWaveform := by
  intro s t i _ ha hd h hr
  have hend := ticks_tTotal_of_accept ha hd h hr
  obtain ⟨hw, hp⟩ := plays_of_accept ha hd h
  rw [← totalDur_waveform t.cfg t.frame] at hr hend ⊢
  refine ⟨fun k g hk j h₁ h₂ => ?_, fun j hj => ?_, ⟨_, hend, rfl, rfl, rfl, rfl, rfl, rfl⟩, ?_⟩
  · have hlevel := samples_getElem? hk h₁ h₂
    obtain ⟨hj, -⟩ := List.getElem?_eq_some_iff.1 hlevel
    obtain ⟨u, hu, -, -, hx⟩ := hp.ticks_inside hw hr (length_samples _ ▸ hj)
    exact ⟨u, hu, Option.some.inj (hx.symm.trans hlevel)⟩
  · obtain ⟨u, hu, hb, hdev, -⟩ := hp.ticks_inside hw hr hj
    exact ⟨u, hu, hb, hdev⟩
  · rw [hp.lineOver_eq_samples hw hr]
    exact runLengthsOfSamples _ hp.dur_pos

/-! ### The host while a transmission runs (R87, R91) -/

/-- Along a busy run of the block the sequencer is busy: edge by edge the two runs are the same. -/
theorem seqTicks_busy {n : Nat} {s : State} (hw : s.cfg.wf = true) (hr : s.noReset n)
    (h : ∀ j < n, ∃ u, ticks j s = .next u ∧ u.busy = true) : ∀ j < n, (seqTicks j s).busy = true := by
  intro j
  induction j using Nat.strong_induction_on with
  | _ j ih =>
    intro hj
    obtain ⟨u, hu, hb⟩ := h j hj
    rw [ticks_eq_seqTicks hw (noReset_of_le hr hj.le) fun k hk => ih k hk (hk.trans hj)] at hu
    cases hu
    exact hb

/-- Settles O10: under both hosts the run is that of the sequencer, which does not look at what the host drives. -/
theorem runningTransmissionIgnoresHost : Obligations.RunningTransmissionIgnoresHost := by
  intro n s ps qs hw hps hqs h
  have hb : ∀ j < n, (seqTicks j s).busy = true := fun j hj => by
    have := seqTicks_busy (s := { s with inputs := ps }) hw hps h j hj
    rwa [seqTicks_setInputs] at this
  have hrun : ∀ rs : List PortIn, (∀ p ∈ rs.take n, p.rst = false) →
      ticks n { s with inputs := rs } = .next { seqTicks n s with inputs := rs.drop n } := fun rs hrs => by
    rw [ticks_eq_seqTicks (s := { s with inputs := rs }) hw hrs fun j hj => by rw [seqTicks_setInputs]; exact hb j hj,
      seqTicks_setInputs]
  exact ⟨_, _, hrun ps hps, hrun qs hqs, rfl⟩

/-- Settles O33: inside the segment the sequencer only counts, and its last tick is the move to the next segment. -/
theorem segmentHoldsItsLevel : Obligations.SegmentHoldsItsLevel := by
  intro s hw hb hc hr
  have hbusy : ∀ j < s.cnt, (seqTicks j s).busy = true := fun j hj => by rw [seqTicks_inside hj]; exact hb
  refine ⟨fun j hj => ?_, ?_⟩
  · rw [ticks_eq_seqTicks hw (noReset_of_le hr hj.le) fun k hk => hbusy k (hk.trans hj), seqTicks_inside hj]
  · rw [ticks_eq_seqTicks hw hr hbusy, seqTicks_segment hc]
    exact congrArg _ (nextSegment_setInputs s _).symm

/-! ### The moves of the sequencer (R88, R89) -/

theorem nextSegment_of_low_part {s : State} (hk : s.slot.val < 25) (hh : s.half = false) :
    s.nextSegment = (s.setPos s.rep s.slot true).loadSegment .high (highDur s.frame s.slot.val) := by
  simp [State.nextSegment, hk, hh]

theorem nextSegment_of_high_part {s : State} {k : Fin 26} (hh : s.half = true) (hk : k.val = s.slot.val + 1) :
    s.nextSegment =
      (s.setPos s.rep k false).loadSegment .low (if k.val = 25 then s.cfg.tGap else lowDur s.frame k.val) := by
  have hlt : s.slot.val < 25 := by omega
  have hsucc : Fin.succ ⟨s.slot.val, hlt⟩ = k := Fin.ext hk.symm
  simp [State.nextSegment, State.nextSlot, hlt, hh, hsucc, hk]

theorem nextSegment_of_gap {s : State} (hk : s.slot.val = 25) (hh : s.half = false)
    (hb : burstBoundary s.cfg s.rep = true) :
    s.nextSegment = (s.setPos s.rep s.slot true).loadSegment .low s.cfg.tBurst := by
  simp [State.nextSegment, State.nextTrailer, hk, hh, hb]

theorem nextSegment_of_trailer_end {s : State} (hk : s.slot.val = 25)
    (h : s.half = true ∨ burstBoundary s.cfg s.rep = false) : s.nextSegment = s.endRepeat := by
  have hpause : ¬ (s.half = false ∧ burstBoundary s.cfg s.rep = true) := by rcases h with h | h <;> simp [h]
  simp [State.nextSegment, State.nextTrailer, hk, hpause]

theorem endRepeat_of_more {s : State} (h : s.rep + 1 < s.cfg.nRepeats) :
    s.endRepeat = (s.setPos (s.rep + 1) 0 false).loadSegment .low tShort := if_pos h

theorem endRepeat_of_last {s : State} (h : s.cfg.nRepeats ≤ s.rep + 1) : s.endRepeat = s.goIdle := if_neg h.not_gt

/-- Settles O32: an equation for each row of R88 and R89, and the end of the waveform that an accepted command plays. -/
theorem sequencerMoves : Obligations.SequencerMoves := by
  refine ⟨fun s => ⟨fun hk hh => ?_, fun k hk hh hk' => ?_, fun hk hh => ?_, fun hk hh hb => ?_, fun hk h => ?_,
    fun h => ?_, fun h => ?_⟩, fun s t i _ ha hd h hr => ⟨fun j hj => ?_, ?_⟩⟩
  · rw [nextSegment_of_low_part (Nat.lt_succ_of_le hk) hh]; rfl
  · rw [nextSegment_of_high_part hh hk', if_neg (by omega)]; rfl
  · rw [nextSegment_of_high_part (k := 25) hh (by rw [hk]; rfl)]; rfl
  · rw [nextSegment_of_gap hk hh hb]; rfl
  · rw [nextSegment_of_trailer_end hk h]
  · rw [endRepeat_of_more h]; rfl
  · rw [endRepeat_of_last h]; rfl
  · obtain ⟨u, hu, hb⟩ := busy_after_accept ha hd h hj (noReset_of_le hr hj.le)
    exact ⟨u, hu, hb, accepts_eq_false_of_busy hb⟩
  · exact ⟨_, ticks_tTotal_of_accept ha hd h hr, rfl, rfl, rfl, by simp [accepts_iff]⟩

/-! ### The symbols and the repeat body (R75 to R79) -/

/-- Settles O26: the durations of the sequencer add to a slot and are those of the slot's symbol. -/
theorem symbolShape : Obligations.SymbolShape :=
  ⟨rfl, fun b => by cases b <;> rfl, fun f i => ⟨lowDur_add_highDur f i, slot_segments f i⟩⟩

theorem dataSyms_eq_flatMap (f : Frame) (n : Nat) :
    dataSyms f n = (List.range n).flatMap fun k => dataSym (frameBit f (k + 1)) := by
  induction n with
  | zero => rfl
  | succ n ih => rw [dataSyms, ih, List.range_succ, List.flatMap_append, List.flatMap_singleton]

theorem length_repeatBody (f : Frame) : (repeatBody f).length = 50 := by
  rw [repeatBody, List.length_append, dataSyms_length]
  rfl

/-- Every one among the first `n` data bits is low for 500 microseconds less than a zero. -/
theorem timeAt_low_dataSyms (f : Frame) (n : Nat) :
    timeAt .low (dataSyms f n) + 500 * (List.range n).countP (fun k => frameBit f (k + 1)) = 1000 * n := by
  induction n with
  | zero => rfl
  | succ n ih =>
    have hsym : timeAt .low (dataSym (frameBit f (n + 1))) + 500 * (if frameBit f (n + 1) then 1 else 0) = 1000 := by
      cases frameBit f (n + 1) <;> rfl
    rw [dataSyms, timeAt_append, List.range_succ, List.countP_append, List.countP_singleton]
    omega

/-- The data bits are the bits of the frame from the top (R74). -/
theorem ones_eq_countP_frameBit (f : Frame) : ones f = (List.range 24).countP fun k => frameBit f (k + 1) := by
  have hrev : (List.range frameBits).reverse = (List.range 24).map fun k => 24 - (k + 1) := by decide
  rw [ones, ← List.countP_reverse, hrev, List.countP_map]
  rfl

theorem timeAt_low_repeatBody (f : Frame) :
    timeAt .low (repeatBody f) = 500 + 500 * ones f + 1000 * (24 - ones f) := by
  have hle : ones f ≤ 24 := List.countP_le_length
  have hdata := timeAt_low_dataSyms f 24
  rw [← ones_eq_countP_frameBit] at hdata
  have hstart : timeAt .low startSym = 500 := rfl
  rw [repeatBody, timeAt_append, hstart, frameBits]
  omega

/-- Settles O27: the body slot by slot, its three sums, and the ones of one frame. -/
theorem repeatBodyFigures : Obligations.RepeatBodyFigures := by
  refine fun f => ⟨?_, length_repeatBody f, totalDur_repeatBody f, timeAt_low_repeatBody f, by decide⟩
  rw [repeatBody, frameBits, dataSyms_eq_flatMap]
  rfl

/-! ### The burst pause (R81) -/

theorem burstPause_eq_nil {c : Config} {r : Nat}
    (h : ¬ ((r + 1) % c.burstLen = 0 ∧ r + 1 < c.nRepeats ∧ 0 < c.tBurst)) : burstPause c r = [] := by
  rw [burstPause, if_neg (mt (burstBoundary_iff c r).1 h)]

/-- Gap and burst pause are one low, so that they merge like one with whatever follows them. -/
theorem merge_trailer_append (c : Config) (r : Nat) (w : List Segment) :
    merge (gap c ++ burstPause c r ++ w) = merge (⟨.low, c.tGap + if burstBoundary c r then c.tBurst else 0⟩ :: w) := by
  unfold gap burstPause
  cases burstBoundary c r with
  | false => rfl
  | true => exact merge_cons_cons_same _ _ _ _

/-- Settles O28, clause by clause from R81's condition. -/
theorem burstPauseRule : Obligations.BurstPauseRule := by
  refine ⟨fun c r => ?_, fun c => burstPause_eq_nil (by omega), fun c r _ h => burstPause_eq_nil ?_, fun c r => ?_,
    fun r => ?_⟩
  · simp only [burstPause, burstBoundary_iff, gt_iff_lt]
  · rintro ⟨hmod, hr, ht⟩
    rcases h with hlen | hzero
    · rw [Nat.mod_eq_of_lt (hr.trans_le hlen)] at hmod
      omega
    · omega
  · have h := merge_trailer_append c r []
    rwa [List.append_nil] at h
  · rw [burstBoundary_iff]
    simp only [Config.default]
    omega

/-! ### The number of segments (R83, R85) -/

theorem length_burstPause (c : Config) (r : Nat) :
    (burstPause c r).length = if burstBoundary c r = true then 1 else 0 := by
  unfold burstPause
  split <;> rfl

theorem length_repeats (c : Config) (f : Frame) (n : Nat) : (repeats c f n).length = n * 51 + pausesBefore c n := by
  induction n with
  | zero => simp [repeats]
  | succ n ih =>
    rw [repeats, repeatSegments, List.length_append, List.length_append, List.length_append, ih, length_repeatBody,
      length_burstPause, pausesBefore_succ, gap, List.length_singleton]
    ring

theorem length_waveform (c : Config) (f : Frame) : (waveform c f).length = c.nRepeats * 51 + burstCount c := by
  rw [waveform, length_repeats, pausesBefore_nRepeats]

/-- Settles O29: the sums over the repeats, and their values for the defaults. -/
theorem waveformLength : Obligations.WaveformLength :=
  ⟨fun c f => ⟨totalDur_waveform c f, (totalDur_waveform c f).symm, rfl, length_waveform c f⟩, by decide,
    fun f => length_waveform Config.default f⟩

/-! ### The merged waveform (R12, R83) -/

/-- The list begins with a low segment. -/
def StartsLow (w : List Segment) : Prop := w.head?.map (·.level) = some .low

/-- A segment put before a list adds one to its merged form unless the list begins at the same level. -/
theorem length_merge_cons (g : Segment) (w : List Segment) :
    (merge (g :: w)).length = (merge w).length + if w.head?.map (·.level) = some g.level then 0 else 1 := by
  rw [merge_cons, ← merge_head_level]
  cases merge w with
  | nil => rfl
  | cons h tail => by_cases hl : g.level = h.level <;> simp [hl, eq_comm]

theorem length_merge_low_cons {w : List Segment} (h : StartsLow w) (d : Nat) :
    (merge (⟨.low, d⟩ :: w)).length = (merge w).length := by
  unfold StartsLow at h
  simp [length_merge_cons, h]

theorem length_merge_symbol {w : List Segment} (h : StartsLow w) (a b : Nat) :
    (merge ([⟨.low, a⟩, ⟨.high, b⟩] ++ w)).length = (merge w).length + 2 := by
  unfold StartsLow at h
  simp [length_merge_cons, h]

theorem startsLow_symbol (a b : Nat) (w : List Segment) : StartsLow ([⟨.low, a⟩, ⟨.high, b⟩] ++ w) := rfl

theorem startsLow_trailer (c : Config) (r : Nat) (w : List Segment) : StartsLow (gap c ++ burstPause c r ++ w) := rfl

theorem startsLow_repeatSegments (c : Config) (f : Frame) (r : Nat) (w : List Segment) :
    StartsLow (repeatSegments c f r ++ w) := rfl

theorem startsLow_dataSyms_append (f : Frame) (n : Nat) {w : List Segment} (h : StartsLow w) :
    StartsLow (dataSyms f n ++ w) := by
  induction n generalizing w with
  | zero => exact h
  | succ n ih =>
    rw [dataSyms, List.append_assoc, dataSym_eq]
    exact ih (startsLow_symbol _ _ _)

theorem length_merge_dataSyms_append (f : Frame) (n : Nat) {w : List Segment} (h : StartsLow w) :
    (merge (dataSyms f n ++ w)).length = (merge w).length + 2 * n := by
  induction n generalizing w with
  | zero => rfl
  | succ n ih =>
    rw [dataSyms, List.append_assoc, dataSym_eq, ih (startsLow_symbol _ _ _), length_merge_symbol h]
    omega

theorem length_merge_repeatBody_append (f : Frame) {w : List Segment} (h : StartsLow w) :
    (merge (repeatBody f ++ w)).length = (merge w).length + 50 := by
  rw [repeatBody, startSym, List.append_assoc, length_merge_symbol (startsLow_dataSyms_append f _ h),
    length_merge_dataSyms_append f _ h, frameBits]

/-- The trailer of a repeat joins the low that follows it, and is one segment where nothing follows. -/
theorem length_merge_repeatSegments_append (c : Config) (f : Frame) (r : Nat) (w : List Segment) :
    (merge (repeatSegments c f r ++ w)).length =
      (merge (⟨.low, c.tGap + if burstBoundary c r then c.tBurst else 0⟩ :: w)).length + 50 := by
  rw [repeatSegments, List.append_assoc (repeatBody f), List.append_assoc,
    length_merge_repeatBody_append f (startsLow_trailer c r w), merge_trailer_append]

theorem length_merge_repeats_append (c : Config) (f : Frame) (n : Nat) {w : List Segment} (h : StartsLow w) :
    (merge (repeats c f n ++ w)).length = (merge w).length + 50 * n := by
  induction n generalizing w with
  | zero => rfl
  | succ n ih =>
    rw [repeats, List.append_assoc, ih (startsLow_repeatSegments c f n w), length_merge_repeatSegments_append,
      length_merge_low_cons h]
    omega

/-- Settles O30: every repeat adds 50 segments to what follows it, the last one its trailer besides. -/
theorem mergedWaveformLength : Obligations.MergedWaveformLength := by
  intro c f hw
  obtain ⟨-, hn, -⟩ := (wf_iff c).1 hw
  obtain ⟨n, hN⟩ : ∃ n, c.nRepeats = n + 1 := ⟨c.nRepeats - 1, by omega⟩
  have hlast := length_merge_repeatSegments_append c f n []
  have hone : (merge [⟨.low, c.tGap + if burstBoundary c n then c.tBurst else 0⟩]).length = 1 := rfl
  rw [waveform, hN, repeats, ← List.append_nil (repeatSegments c f n),
    length_merge_repeats_append c f n (startsLow_repeatSegments c f n []), hlast, hone]
  omega

/-! ### The priority order of an edge (R90) -/

/-- Settles O6: a row of the priority order after the other; the outputs are the registers' by definition. -/
theorem edgePriorityOrder : Obligations.EdgePriorityOrder := by
  intro s hw
  have haccept : s.pins.rst = false → s.busy = false → s.pins.cmdValid = true →
      step s = executeWord s.pins.cmdWord s.advancePins :=
    fun hr hb hv => step_accept hw ((accepts_iff s).2 ⟨hr, hv, hb⟩)
  refine ⟨step_reset hw, step_busy hw, fun hr hb hv i hd => ?_, fun hr hb hv r hd => ?_, step_idle hw, fun _ _ => rfl⟩
  · rw [haccept hr hb hv, executeWord, hd]
  · rw [haccept hr hb hv, executeWord, hd]

end Sys2Proof.Machine

namespace Sys2Proof.Machine

/-! ### The edge that ends a transmission (R89, R97) -/

theorem seqTick_of_cnt_le_one {s : State} (h : s.cnt ≤ 1) : s.seqTick = s.nextSegment := if_neg h.not_gt

/-- No burst pause follows the last repeat (R81). -/
theorem burstBoundary_of_last {c : Config} {r : Nat} (h : c.nRepeats ≤ r + 1) : burstBoundary c r = false :=
  Bool.eq_false_iff.2 fun hb => h.not_gt ((burstBoundary_iff c r).1 hb).2.1

theorem seqTick_of_last_trailer {s : State} (hc : s.cnt ≤ 1) (hk : s.slot.val = 25)
    (hr : s.cfg.nRepeats ≤ s.rep + 1) : s.seqTick = s.goIdle := by
  rw [seqTick_of_cnt_le_one hc, nextSegment_of_trailer_end hk (.inr (burstBoundary_of_last hr)), endRepeat_of_last hr]

/-- The one tick after which a running sequencer is idle: the last row of R88 and R89, all others keep `BUSY`. -/
theorem seqTick_ends {s : State} (hb : s.busy = true) (h : s.seqTick.busy = false) :
    s.cnt ≤ 1 ∧ s.slot.val = 25 ∧ (s.half = true ∨ burstBoundary s.cfg s.rep = false) ∧ s.cfg.nRepeats ≤ s.rep + 1 ∧
      s.seqTick = s.goIdle := by
  rcases Nat.lt_or_ge 1 s.cnt with hc | hc
  · rw [State.seqTick, if_pos hc] at h
    simp [hb] at h
  rw [seqTick_of_cnt_le_one hc] at h ⊢
  rcases nextSegment_cases s with ⟨-, -, he⟩ | ⟨_, -, -, -, he⟩ | ⟨-, -, -, he⟩ | ⟨-, -, -, he⟩ | ⟨hk, hp, hr, he⟩
  case inr.inr.inr.inr => exact ⟨hc, hk, hp, hr, he⟩
  all_goals simp [he, hb] at h

/-- Without a reset only the tick of `seqTick_ends` ends a transmission (R89, R97). -/
theorem step_ends {s t : State} (h : step s = .next t) (hb : s.busy = true) (hr : s.pins.rst = false)
    (ht : t.busy = false) :
    s.cnt ≤ 1 ∧ s.slot.val = 25 ∧ (s.half = true ∨ burstBoundary s.cfg s.rep = false) ∧ s.cfg.nRepeats ≤ s.rep + 1 ∧
      t = s.advancePins.goIdle := by
  obtain ⟨hw, -⟩ := step_cases h
  rw [step_busy hw hr hb] at h
  cases h
  exact seqTick_ends (s := s.advancePins) hb ht

/-- Settles O11: the last tick of the last trailer idles the sequencer, and no other tick does. -/
theorem endEdgeAcceptsNothing : Obligations.EndEdgeAcceptsNothing := by
  refine ⟨fun s hw hb hr hc hk hlast => ?_, fun s t hi hb hr h ht => ?_, fun s t _ hb hr h ht => ?_⟩
  · have hidle : s.advancePins.seqTick = s.advancePins.goIdle :=
      seqTick_of_last_trailer hc.le (congrArg Fin.val hk) hlast.ge
    have hs : step s = .next s.advancePins.goIdle := by rw [step_busy hw hr hb, hidle]
    refine ⟨?_, _, hs, rfl, rfl, ⟨rfl, rfl, rfl, rfl⟩, rfl, by simp [accepts_iff]⟩
    rw [acceptedWords_one hs, accepts_eq_false_of_busy hb]
    rfl
  · obtain ⟨hc, hk, hp, hlast, -⟩ := step_ends h hb hr ht
    obtain ⟨-, -, -, hrun⟩ := hi
    obtain ⟨hpos, -, -, hrep, -⟩ := hrun hb
    exact ⟨hc.antisymm hpos, Fin.ext hk, hlast.antisymm' hrep, hp⟩
  · obtain ⟨-, -, -, -, rfl⟩ := step_ends h hb hr ht
    rfl

end Sys2Proof.Machine

namespace Sys2Proof.Machine

/-! ### The reset edge (R105, R106, R108) -/

theorem accepts_eq_false_of_reset {s : State} (h : s.pins.rst = true) : s.accepts = false := by simp [State.accepts, h]

/-- What a reset edge leaves, the ghost traces aside: the reset state, whatever the registers held before. -/
theorem resetEdge_eq_resetWith (s : State) :
    { s.resetEdge with trace := [], past := [] } =
      { State.resetWith s.cfg with fanAddr := s.fanAddr, inputs := s.inputs } := rfl

/-- The pins an edge samples are those the host drives at it, as long as it drives any (R31, log 2). -/
theorem pins_mem_take_of_ticks {n : Nat} {s u : State} (h : ticks n s = .next u) (hn : n < s.inputs.length) :
    u.pins ∈ s.inputs.take (n + 1) := by
  have hpins : u.pins = s.inputs[n] := by
    rw [State.pins, ticks_inputs h, List.drop_eq_getElem_cons hn, List.headD_cons]
  rw [hpins]
  exact List.mem_take_iff_getElem.2 ⟨n, by omega, rfl⟩

/-- By induction on the edges of the held reset, the last one apart. -/
theorem heldReset_accepts_nothing {n : Nat} {s : State} (hw : s.cfg.wf = true) (hn : n ≤ s.inputs.length)
    (hr : ∀ p ∈ s.inputs.take n, p.rst = true) : acceptedWords n s = [] ∧ ∃ t, ticks n s = .next t := by
  induction n with
  | zero => exact ⟨rfl, s, rfl⟩
  | succ n ih =>
    have hprefix : s.inputs.take n <+: s.inputs.take (n + 1) := List.take_prefix_take_left n.le_succ
    obtain ⟨hacc, u, hu⟩ := ih (Nat.le_of_succ_le hn) fun p hp => hr p (hprefix.subset hp)
    have hrst : u.pins.rst = true := hr _ (pins_mem_take_of_ticks hu hn)
    obtain ⟨-, hcfg⟩ := addressAndParametersConstant n s u hu
    have hs : step u = .next u.advancePins.resetEdge := step_reset (hcfg ▸ hw) hrst
    refine ⟨?_, _, (ticks_add_of_next hu 1).trans (ticks_succ_of_step hs 0)⟩
    rw [acceptedWords_add hu, hacc, acceptedWords_one hs, accepts_eq_false_of_reset hrst]
    rfl

/-- The last edge of a held reset is a reset edge, and what came before it changed neither `FANADDR` nor a parameter. -/
theorem heldReset_end {n : Nat} {s t : State} (hn : n < s.inputs.length)
    (hr : ∀ p ∈ s.inputs.take (n + 1), p.rst = true) (h : ticks (n + 1) s = .next t) :
    { t with trace := [], past := [] } =
      { State.resetWith s.cfg with fanAddr := s.fanAddr, inputs := s.inputs.drop (n + 1) } := by
  have hin := ticks_inputs h
  obtain ⟨haddr, hcfg⟩ := addressAndParametersConstant (n + 1) s t h
  obtain ⟨u, hu, hut⟩ := ticks_succ_next h
  obtain rfl := step_reset_eq hut (hr _ (pins_mem_take_of_ticks hu hn))
  rw [← hin, ← haddr, ← hcfg]
  exact resetEdge_eq_resetWith u.advancePins

/-- Settles O41: one reset edge by the state it leaves, a held reset by its last edge. -/
theorem resetEdgeLoadsResetValues : Obligations.ResetEdgeLoadsResetValues := by
  refine ⟨fun s hw hr => ⟨accepts_eq_false_of_reset hr, _, step_reset hw hr, rfl⟩, fun n s hw hn hr => ?_⟩
  obtain ⟨hacc, t, ht⟩ := heldReset_accepts_nothing hw hn hr
  exact ⟨hacc, t, ht, heldReset_end hn hr ht⟩

/-- Settles O42: the reset edge clears `BUSY`, and the `LASTSPD` it loads lets every command run. -/
theorem readyAfterReset : Obligations.ReadyAfterReset := by
  intro s t hw hr h
  obtain rfl := step_reset_eq h hr
  refine ⟨rfl, rfl, fun hrst hvalid => ?_⟩
  have ha : s.advancePins.resetEdge.accepts = true := (accepts_iff _).2 ⟨hrst, hvalid, rfl⟩
  refine ⟨ha, fun i hd => ?_⟩
  have hs := step_eq_exec_of_accepts (s := s.advancePins.resetEdge) hw ha hd
  obtain ⟨u, hu⟩ := exec_answers (i := i) (s := s.advancePins.resetEdge.advancePins) (.inr rfl)
  obtain ⟨-, -, -, -, hbusy, -⟩ := exec_frame hu
  exact ⟨hs, u, hs.trans hu, hbusy⟩

/-! ### Before the first legal command (R107) -/

/-- Only a legal word moves the block out of the reset state: a reset edge loads the same values again, and the edge of a
reserved word or of no word changes nothing. -/
theorem step_of_eq_resetWith {c : Config} {drive : List PortIn} {s t : State}
    (hs : s = { State.resetWith c with inputs := drive }) (h : step s = .next t)
    (hl : s.accepts = true → legalWord s.pins.cmdWord = false) : t = { State.resetWith c with inputs := drive.tail } := by
  have hidle : s.busy = false := by rw [hs]; rfl
  obtain ⟨-, ⟨-, rfl⟩ | ⟨-, hb, -⟩ | ⟨ha, i, hd, -⟩ | ⟨-, -, rfl⟩ | ⟨-, -, -, rfl⟩⟩ := step_cases h
  · rw [hs]; rfl
  · simp [hidle] at hb
  · have hlegal := (legalWord_iff _).2 ⟨i, hd⟩
    simp [hl ha] at hlegal
  · rw [hs]; rfl
  · rw [hs]; rfl

/-- Settles O43, by induction on the edges from the first one. -/
theorem nothingSentBeforeFirstCommand : Obligations.NothingSentBeforeFirstCommand := by
  intro n c drive t h hl
  induction n generalizing drive with
  | zero => cases h; rfl
  | succ n ih =>
    obtain ⟨u, hu, hut⟩ := ticks_succ_first h
    rw [acceptedWords_succ hu] at hl
    obtain rfl := step_of_eq_resetWith rfl hu fun ha => hl _ (by simp [ha])
    rw [ih drive.tail hut fun w hw => hl w (List.mem_append_right _ hw), List.drop_tail]

end Sys2Proof.Machine
